-- ==== Sys2Proof/Word.lean ====
section
/-! DEFINITION. The word types of the module and their plainest arithmetic (R4: little-endian, bit 0 least significant). -/

namespace Sys2Proof

/-- A 32-bit register or instruction word. -/
abbrev Word := BitVec 32

/-- One byte. -/
abbrev Byte := BitVec 8

/-- A timestamp: 64 bits, LSB 0.25 ns (R49). -/
abbrev Stamp := BitVec 64

/-- A 64-bit channel, move or host address (R169, R299). -/
abbrev Addr := BitVec 64

/-- The bytes of `w`, lowest first (R4): `n` of them. -/
def leBytes : (n : Nat) → Nat → List Byte
  | 0, _ => []
  | n + 1, w => BitVec.ofNat 8 w :: leBytes n (w / 256)

/-- The number that little-endian bytes spell (R4). -/
def ofLeBytes : List Byte → Nat
  | [] => 0
  | b :: bs => b.toNat + 256 * ofLeBytes bs

end Sys2Proof
end

