-- ==== Sys2Proof/Machine/Bits.lean ====
section
/-! DEFINITION. Bit fields, sign extension, byte order, rounding and the two CRCs of the manual. -/

namespace Sys2Proof.Machine

/-- Bits [hi:lo] of a register as a number (Table 0-2). -/
def fld (w : Word) (hi lo : Nat) : Nat := (w.toNat / 2 ^ lo) % 2 ^ (hi - lo + 1)

/-- Bit i of a register. -/
def bit (w : Word) (i : Nat) : Bool := w.getLsbD i

/-- A number placed at bit `lo` of a register. -/
def put (v lo : Nat) : Nat := v * 2 ^ lo

/-- A flag placed at bit `lo`. -/
def putb (b : Bool) (lo : Nat) : Nat := if b then 2 ^ lo else 0

/-- A register word from a number. -/
def toW (n : Nat) : Word := BitVec.ofNat 32 n

/-- A register word from a signed value, sign-extended (R72). -/
def toWi (i : Int) : Word := BitVec.ofInt 32 i

/-- The low and high register halves of a 64-bit count (R51). -/
def lo32 (n : Nat) : Word := BitVec.ofNat 32 n
def hi32 (n : Nat) : Word := BitVec.ofNat 32 (n / 2 ^ 32)

/-- The signed value of the low n bits of a word. -/
def sfld (w : Word) (n : Nat) : Int := let v := w.toNat % 2 ^ n; if 2 * v < 2 ^ n then v else (v : Int) - 2 ^ n

/-- Saturation between two ends (R73, R74). -/
def clampI (lo hi x : Int) : Int := if x < lo then lo else if hi < x then hi else x

/-- x / n to the nearest, halves upwards (R77). -/
def roundDiv (x : Int) (n : Nat) : Int := (2 * x + n) / (2 * n)

/-- Signed residue modulo 2^n, as a wrapping count holds it (R402). -/
def wrapI (n : Nat) (x : Int) : Int := let v := x % 2 ^ n; if 2 * v < 2 ^ n then v else v - 2 ^ n

/-- Increment of a 32-bit saturating counter (R402). -/
def satInc (n : Nat) : Nat := if n < 0xFFFFFFFF then n + 1 else n

/-- Increment of a 16-bit saturating counter (R402). -/
def satInc16 (n : Nat) : Nat := if n < 0xFFFF then n + 1 else n

/-- One bit of a CRC-8 with polynomial 0x07, most significant bit first. -/
def crc8Step (c : BitVec 8) (b : Bool) : BitVec 8 :=
  let x := c.msb != b
  if x then (c <<< 1) ^^^ 0x07 else c <<< 1

/-- CRC-8, polynomial 0x07, initial value 0, over the n low bits of a message, in the order given (Table 2-2). -/
def crc8 (bits : List Bool) : BitVec 8 := bits.foldl crc8Step 0

/-- The bits [119:0] of a tick message from the most significant down (log entry 13). -/
def msgBits (m : BitVec 128) : List Bool := ((List.range 120).map fun i => m.getLsbD i).reverse

/-- One byte of a CRC-32C, reflected. -/
def crc32cByte (c : BitVec 32) (b : Byte) : BitVec 32 :=
  (List.range 8).foldl (fun c _ => if c.getLsbD 0 then (c >>> 1) ^^^ 0x82F63B78 else c >>> 1) (c ^^^ b.zeroExtend 32)

/-- CRC-32C of some bytes (R469, R477, R485). -/
def crc32c (bs : List Byte) : BitVec 32 := ~~~ (bs.foldl crc32cByte 0xFFFFFFFF)

/-- The bytes of a list from `ofs`, `n` of them. -/
def slice (bs : List Byte) (ofs n : Nat) : List Byte := (bs.drop ofs).take n

/-- The little-endian number in bytes `ofs` to `ofs + n - 1` (R4). -/
def leAt (bs : List Byte) (ofs n : Nat) : Nat := ofLeBytes (slice bs ofs n)

/-- Zero bytes. -/
def zeros (n : Nat) : List Byte := List.replicate n 0

/-- All values of a Fin type in ascending order. -/
def allFin (n : Nat) : List (Fin n) := List.finRange n

/-- A Fin from a number reduced into its range. -/
def finOf (n : Nat) [NeZero n] (x : Nat) : Fin n := Fin.ofNat n x

/-- Floor square root. -/
def isqrt (n : Nat) : Nat := Nat.sqrt n

end Sys2Proof.Machine
end

