-- ==== Sys2Proof/Syntax.lean ====
section
/-! DEFINITION. The commands of the module: one constructor per row of spec/opcode_table.json, with the row's operands.
Where a row is a physical event, its operands are what the outside world supplies at that event (a converted code, a
contact's position, a measured temperature, the bytes a host read returned); log entry 2 says so. -/

namespace Sys2Proof

/-- A port, 0 to 127 (R5). -/
abbrev PortIx := Fin 128
/-- A Comb, 0 to 15 (R5). -/
abbrev CombIx := Fin 16
/-- A graft pair: pair j of Comb c is 4c + j (R143). -/
abbrev PairIx := Fin 64
/-- A channel, 0 to 255 (R167). -/
abbrev ChIx := Fin 256
/-- A Needle core, 0 to 15 (R34, R209). -/
abbrev CoreIx := Fin 16
/-- A move channel, 0 to 63 (R294). -/
abbrev McIx := Fin 64
/-- A Reflex rule, 0 to 511 (R368). -/
abbrev RuleIx := Fin 512
/-- A queue pair, 0 to 511; 0 is the admin queue (R330). -/
abbrev QpIx := Fin 512
/-- An MSI-X vector, 0 to 512 (R325). -/
abbrev VecIx := Fin 513

/-- Who makes a register access (R510, R517). -/
inductive Agent where
  | host
  | supervisor
  | needle (k : CoreIx)
  | move
  deriving DecidableEq, Repr

/-- A register of the function's configuration space that Table 11-1 or R326 speaks of; the manual gives it no address. -/
inductive CfgReg where
  | classCode
  | bar (i : Fin 6)
  | deviceControl
  | powerControl
  | msixControl
  deriving DecidableEq, Repr

/-- Where a register access goes (R326): offsets of BAR0, the MSI-X table and PBA of BAR4, or the configuration space. -/
inductive Space where
  | bar0
  | bar4
  | cfg (r : CfgReg)
  deriving DecidableEq, Repr

/-- A register access's target: the space and the offset in it. -/
structure Place where
  sp   : Space
  addr : Word
  deriving DecidableEq, Repr

/-- What PRD's word holds below ga: the field gb, which selects nothing, and the register index (R256, R257). -/
structure PrdSel where
  gb : BitVec 5
  ix : BitVec 4
  deriving DecidableEq, Repr

/-- A fault unit: type and index (R411, Table 14-1). -/
structure UnitId where
  utype : Nat
  index : Nat
  deriving DecidableEq, Repr

/-- What a read outside the module's own SRAM gave: bytes, a link refusal, or an uncorrectable ECC error (R190, R302, R546). -/
inductive ReadRes where
  | ok (bytes : List Byte)
  | refused
  | ecc
  deriving DecidableEq, Repr

/-- What a port's output stage, its sample and its Scout window comparator show at a tick edge (R75, R82, R83, R281). -/
structure EdgeObs where
  port   : PortIx
  /-- current that the load would draw at the output's level, µA; its peak for an excitation -/
  demand : Nat
  comply : Bool
  /-- the sample taken at the edge, as the raw 20-bit code that conversion 0 delivers -/
  sample : Int
  inBand : Bool
  deriving DecidableEq, Repr

/-- What a port's load monitor and driver current sense gave over the frame just ended (R88, R116, R460). -/
structure FrameObs where
  port : PortIx
  load : Int
  ron  : Option Nat
  deriving DecidableEq, Repr

/-- The measured energies of the frame just ended (R443, R446): die power and the rest in mW, base energy in nJ. -/
structure EnergyObs where
  pDie  : Int
  pRest : Int
  eBase : Int
  deriving DecidableEq, Repr

/-- What the link refuses of a completion (R546): the record, the done-head word. -/
structure RecordRefusal where
  record : Bool
  head   : Bool
  deriving DecidableEq, Repr

/-- What the mains unit measures (R437): units of 0.1 V and 0.1 W; pMax is the largest 1 ms mean of the last 20 ms, and steady says that the
output power has varied by less than ±5 % over the last 100 ms (R461). -/
structure PsuObs where
  mainsOk : Bool
  vin     : BitVec 16
  vbus    : BitVec 16
  pout    : BitVec 16
  pMax    : Nat
  steady  : Bool
  deriving DecidableEq, Repr

/-- One set of calibration coefficients (R93, Table 3-23). -/
structure CalSet where
  adcGain : BitVec 16 := 0
  adcOfs  : BitVec 16 := 0
  dacGain : BitVec 16 := 0
  dacOfs  : BitVec 16 := 0
  deriving DecidableEq, Repr

/-- The result of start-up calibration for one cell (R94, R95): one set per mode and range, and whether it failed. -/
structure CellCal where
  cell : Fin 8
  sets : Vector CalSet 18
  fail : Bool
  deriving DecidableEq, Repr

/-- Why a transfer of the Move engine failed (R310). -/
inductive XferErr where
  | hostAbort
  | ecc
  | access
  deriving DecidableEq, Repr

/-- What the outside gave a MOVE: the bytes a host source returned, and a transfer error with the bytes written before it. -/
structure MoveData where
  hostBytes : List Byte
  err       : Option (XferErr × Nat)
  deriving DecidableEq, Repr

/-- A BAR2 access (R328). -/
inductive Bar2Op where
  | write (bytes : List Byte)
  | read (len : Nat)
  deriving DecidableEq, Repr

/-- Registers that a run of a Supervisor policy hook writes, with their values (R493). -/
abbrev HookWrites := List (Word × Word)

/-- The commands (spec/opcode_table.json, in its order). -/
inductive Instr where
  /-- REGISTER_WRITE (R513). -/
  | registerWrite (a : Agent) (x : Place) (width : Nat) (v : BitVec 64)
  /-- RCLR_READ (R9). -/
  | rclrRead (a : Agent) (x : Place) (width : Nat)
  /-- TICK_NOW_LO (R51). -/
  | tickNowLo (a : Agent)
  /-- TICK_EDGE_LO (R51). -/
  | tickEdgeLo (a : Agent)
  /-- PC_CNT_LO (R142). -/
  | pcCntLo (a : Agent) (p : PortIx)
  /-- PC_TS_LO (R142). -/
  | pcTsLo (a : Agent) (p : PortIx)
  /-- PC_EVQ_POP (R110). -/
  | pcEvqPop (a : Agent) (p : PortIx) (width : Nat)
  /-- REFLEX_EVQ_POP (R384). -/
  | reflexEvqPop (a : Agent) (width : Nat)
  /-- TICK_EDGE (R14). -/
  | tickEdge (obs : List EdgeObs) (moveBytes : Nat)
  /-- DISPATCH (R41). -/
  | dispatch (e : EnergyObs)
  /-- INPUT_READY (R41). -/
  | inputReady (obs : List FrameObs) (fs : List (CombIx × BitVec 16))
  /-- STAGE_DEADLINE (R43). -/
  | stageDeadline
  /-- SCOUT_SEAL (R267). -/
  | scoutSeal
  /-- TICK_PERIOD (R38). -/
  | tickPeriod (a : Agent) (v : Word)
  /-- PERIOD_TAKES_EFFECT (R38). -/
  | periodTakesEffect
  /-- TICK_MESSAGE_RECEIVE (R55). -/
  | tickMessageReceive (m : BitVec 128) (arrival : Int)
  /-- CAL_REQ (R56). -/
  | calReq (a : Agent) (v : Word)
  /-- CABLE_PROBE (R56). -/
  | cableProbe
  /-- PROBE_RETURN (R56). -/
  | probeReturn (upstream : Bool) (roundTrip : Nat)
  /-- CABLE_DELAY_DONE (R56). -/
  | cableDelayDone
  /-- LINK_ACQUIRE (R58). -/
  | linkAcquire
  /-- LINK_LOCK (R58). -/
  | linkLock
  /-- MARKER_LOST (R58). -/
  | markerLost
  /-- ACQUISITION_TICK (R59). -/
  | acquisitionTick
  /-- PC_MODE (R68). -/
  | pcMode (a : Agent) (p : PortIx) (v : Word)
  /-- CHANGEOVER_FRAME (R68). -/
  | changeoverFrame (p : PortIx)
  /-- MODE_TAKES_EFFECT (R68). -/
  | modeTakesEffect (p : PortIx)
  /-- PORT_SETTINGS_APPLY (R70). -/
  | portSettingsApply (p : PortIx)
  /-- PC_OUT_SET (R43). -/
  | pcOutSet (a : Agent) (p : PortIx) (v : Word)
  /-- ADC_CONVERSION (R75). -/
  | adcConversion (p : PortIx) (raw : Int)
  /-- THERM_SHUTDOWN (R87). -/
  | thermShutdown (p : PortIx)
  /-- THERM_COOLED (R87). -/
  | thermCooled (p : PortIx)
  /-- THERM_RESUME (R87). -/
  | thermResume (p : PortIx)
  /-- LEARN (R92). -/
  | learn (a : Agent) (p : PortIx) (v : Word)
  /-- LEARN_COMPLETE (R92). -/
  | learnComplete (p : PortIx)
  /-- CB_CAL_REQ (R98). -/
  | cbCalReq (a : Agent) (c : CombIx) (v : Word)
  /-- IN_SERVICE_CAL_START (R98). -/
  | inServiceCalStart (c : CombIx)
  /-- IN_SERVICE_CAL_DONE (R96). -/
  | inServiceCalDone (c : CombIx) (m : CalSet) (adcSpan dacSpan : Bool)
  /-- START_UP_CALIBRATION (R94). -/
  | startUpCalibration
  /-- COMB_READY (R94). -/
  | combReady (c : CombIx) (cells : List CellCal)
  /-- GROUP_START (R103). -/
  | groupStart (p : PortIx)
  /-- FS_LOW (R104). -/
  | fsLow (c : CombIx)
  /-- FS_LOW_CLEAR (R104). -/
  | fsLowClear (c : CombIx)
  /-- FS_OVC (R104). -/
  | fsOvc (c : CombIx)
  /-- FS_OVC_RESTORE (R104). -/
  | fsOvcRestore (c : CombIx)
  /-- DI_RAW_EDGE (R114). -/
  | diRawEdge (p : PortIx) (level : Bool) (tdc : BitVec 4)
  /-- DI_EDGE (R114). -/
  | diEdge (p : PortIx)
  /-- LINE_EDGE (R119). -/
  | lineEdge (p : PortIx) (level both : Bool) (tdc : BitVec 4)
  /-- LINE_FAULT (R118). -/
  | lineFault (p : PortIx)
  /-- STEP_PULSE (R126). -/
  | stepPulse (p : PortIx)
  /-- PWM_PERIOD_START (R128). -/
  | pwmPeriodStart (p : PortIx)
  /-- RESOLVER_LOCK (R132). -/
  | resolverLock (p : PortIx)
  /-- RES_LOSS (R133). -/
  | resLoss (p : PortIx) (amplitude : Word)
  /-- RES_LOSS_END (R133). -/
  | resLossEnd (p : PortIx)
  /-- EXCITATION_OPEN (R130). -/
  | excitationOpen (p : PortIx)
  /-- SSI_TRANSFER_END (R135). -/
  | ssiTransferEnd (p : PortIx) (bits : BitVec 48) (startHigh endLow lineOk : Bool)
  /-- PC_TXQ_PUSH (R138). -/
  | pcTxqPush (a : Agent) (p : PortIx) (v : Word)
  /-- TX_CHARACTER_START (R138). -/
  | txCharacterStart (p : PortIx) (cts : Bool)
  /-- TX_CHARACTER_END (R137). -/
  | txCharacterEnd (p : PortIx)
  /-- LOOP_OPEN (R138). -/
  | loopOpen (p : PortIx)
  /-- START_BIT (R139). -/
  | startBit (p : PortIx) (tdc : BitVec 4)
  /-- RX_CHAR (R139): the levels sampled after the start bit, of which the port's character has the ones R137 gives it; mark is 1. -/
  | rxChar (p : PortIx) (data : Byte) (parity stop1 stop2 : Bool)
  /-- TXQ_FLUSH (R394). -/
  | txqFlush (a : Agent) (p : PortIx) (v : Word)
  /-- EVQ_FLUSH (R394). -/
  | evqFlush (a : Agent) (p : PortIx) (v : Word)
  /-- READER_STEP (R141). -/
  | readerStep (c : CombIx) (dirHigh : Bool)
  /-- READER_DATA (R141). -/
  | readerData (c : CombIx)
  /-- STROBE_START (R141). -/
  | strobeStart (c : CombIx)
  /-- STROBE_END (R141). -/
  | strobeEnd (c : CombIx)
  /-- PC_GRAFT (R154). -/
  | pcGraft (a : Agent) (p : PortIx) (v : Word)
  /-- GRAFT_REQUEST (R156). -/
  | graftRequest (j : PairIx)
  /-- AUX_CONTACT_CHANGE (R158). -/
  | auxContactChange (j : PairIx) (isOpen : Bool)
  /-- ARMING_COMPLETE (R157). -/
  | armingComplete (j : PairIx)
  /-- RLY_OPEN_FAIL (R157). -/
  | rlyOpenFail (j : PairIx)
  /-- CONTACT_REPORTED_CLOSED (R158). -/
  | contactReportedClosed (j : PairIx)
  /-- REGENERATION_END (R158). -/
  | regenerationEnd (j : PairIx)
  /-- RELEASING_COMPLETE (R158). -/
  | releasingComplete (j : PairIx)
  /-- RLY_CLOSE_FAIL (R165). -/
  | rlyCloseFail (j : PairIx)
  /-- AUX_DISAGREE (R162). -/
  | auxDisagree (j : PairIx)
  /-- BLEND_END (R159). -/
  | blendEnd (j : PairIx)
  /-- RELAY_RAIL (R165). -/
  | relayRail
  /-- RUN_CHAIN (R198). -/
  | runChain (q : QpIx)
  /-- RESUME_CHANNEL (R199). -/
  | resumeChannel (q : QpIx)
  /-- CLEAR_CHANNEL (R200). -/
  | clearChannel
  /-- CHANNEL_HALT (R200). -/
  | channelHalt (n : ChIx)
  /-- CCE_FETCH (R190). -/
  | cceFetch (n : ChIx) (r : ReadRes)
  /-- CCE_NOP (R172). -/
  | cceNop (n : ChIx)
  /-- WAITF (R187). -/
  | waitf (n : ChIx)
  /-- WAITF_END (R187). -/
  | waitfEnd (n : ChIx)
  /-- JUMP (R172). -/
  | jump (n : ChIx)
  /-- CALLC (R191). -/
  | callc (n : ChIx) (ecc : Bool)
  /-- RETC (R192). -/
  | retc (n : ChIx) (ecc : Bool)
  /-- LDCX (R172). -/
  | ldcx (n : ChIx)
  /-- BRCX (R188). -/
  | brcx (n : ChIx)
  /-- EXEC_W (R177). -/
  | execW (n : ChIx) (r : ReadRes)
  /-- EXEC_R (R177). -/
  | execR (n : ChIx)
  /-- MOVE (R186). -/
  | moveEntry (n : ChIx)
  /-- ROUTINE_START (R182). -/
  | routineStart (k : CoreIx)
  /-- CH_POST_CFG (R205). -/
  | chPostCfg (a : Agent) (n : ChIx) (v : Word)
  /-- ADD (R220). -/
  | add (k : CoreIx) (gd ga gb : BitVec 5)
  /-- SUB (R220). -/
  | sub (k : CoreIx) (gd ga gb : BitVec 5)
  /-- AND (R220). -/
  | and (k : CoreIx) (gd ga gb : BitVec 5)
  /-- OR (R220). -/
  | or (k : CoreIx) (gd ga gb : BitVec 5)
  /-- XOR (R220). -/
  | xor (k : CoreIx) (gd ga gb : BitVec 5)
  /-- SLL (R220). -/
  | sll (k : CoreIx) (gd ga gb : BitVec 5)
  /-- SRL (R220). -/
  | srl (k : CoreIx) (gd ga gb : BitVec 5)
  /-- SRA (R220). -/
  | sra (k : CoreIx) (gd ga gb : BitVec 5)
  /-- MUL (R220). -/
  | mul (k : CoreIx) (gd ga gb : BitVec 5)
  /-- MULH (R220). -/
  | mulh (k : CoreIx) (gd ga gb : BitVec 5)
  /-- MULHU (R220). -/
  | mulhu (k : CoreIx) (gd ga gb : BitVec 5)
  /-- SLT (R220). -/
  | slt (k : CoreIx) (gd ga gb : BitVec 5)
  /-- SLTU (R220). -/
  | sltu (k : CoreIx) (gd ga gb : BitVec 5)
  /-- MIN (R220). -/
  | min (k : CoreIx) (gd ga gb : BitVec 5)
  /-- MAX (R220). -/
  | max (k : CoreIx) (gd ga gb : BitVec 5)
  /-- ADDS (R220). -/
  | adds (k : CoreIx) (gd ga gb : BitVec 5)
  /-- SUBS (R220). -/
  | subs (k : CoreIx) (gd ga gb : BitVec 5)
  /-- CLZ (R220). -/
  | clz (k : CoreIx) (gd ga : BitVec 5)
  /-- ABS (R220). -/
  | abs (k : CoreIx) (gd ga : BitVec 5)
  /-- ADDI (R220). -/
  | addi (k : CoreIx) (gd ga : BitVec 5) (imm : BitVec 15)
  /-- ANDI (R220). -/
  | andi (k : CoreIx) (gd ga : BitVec 5) (imm : BitVec 15)
  /-- ORI (R220). -/
  | ori (k : CoreIx) (gd ga : BitVec 5) (imm : BitVec 15)
  /-- XORI (R220). -/
  | xori (k : CoreIx) (gd ga : BitVec 5) (imm : BitVec 15)
  /-- SLLI (R220). -/
  | slli (k : CoreIx) (gd ga : BitVec 5) (sh : BitVec 5)
  /-- SRLI (R220). -/
  | srli (k : CoreIx) (gd ga : BitVec 5) (sh : BitVec 5)
  /-- SRAI (R220). -/
  | srai (k : CoreIx) (gd ga : BitVec 5) (sh : BitVec 5)
  /-- SLTI (R220). -/
  | slti (k : CoreIx) (gd ga : BitVec 5) (imm : BitVec 15)
  /-- LUI (R220). -/
  | lui (k : CoreIx) (gd : BitVec 5) (imm : BitVec 20)
  /-- LW (R221). -/
  | lw (k : CoreIx) (gd ga : BitVec 5) (imm : BitVec 15)
  /-- LH (R221). -/
  | lh (k : CoreIx) (gd ga : BitVec 5) (imm : BitVec 15)
  /-- LHU (R221). -/
  | lhu (k : CoreIx) (gd ga : BitVec 5) (imm : BitVec 15)
  /-- LB (R221). -/
  | lb (k : CoreIx) (gd ga : BitVec 5) (imm : BitVec 15)
  /-- LBU (R221). -/
  | lbu (k : CoreIx) (gd ga : BitVec 5) (imm : BitVec 15)
  /-- SW (R221). -/
  | sw (k : CoreIx) (gs ga : BitVec 5) (imm : BitVec 15)
  /-- SH (R221). -/
  | sh (k : CoreIx) (gs ga : BitVec 5) (imm : BitVec 15)
  /-- SB (R221). -/
  | sb (k : CoreIx) (gs ga : BitVec 5) (imm : BitVec 15)
  /-- LW_P (R222). -/
  | lwP (k : CoreIx) (gd ga : BitVec 5) (imm : BitVec 15)
  /-- SW_P (R222). -/
  | swP (k : CoreIx) (gs ga : BitVec 5) (imm : BitVec 15)
  /-- LH_P (R222). -/
  | lhP (k : CoreIx) (gd ga : BitVec 5) (imm : BitVec 15)
  /-- SH_P (R222). -/
  | shP (k : CoreIx) (gs ga : BitVec 5) (imm : BitVec 15)
  /-- TAS (R226). -/
  | tas (k : CoreIx) (gd ga : BitVec 5)
  /-- LR (R226). -/
  | lr (k : CoreIx) (gd ga : BitVec 5)
  /-- SC (R226). -/
  | sc (k : CoreIx) (gd ga gb : BitVec 5)
  /-- BEQ (R228). -/
  | beq (k : CoreIx) (ga gb : BitVec 5) (off : BitVec 15)
  /-- BNE (R228). -/
  | bne (k : CoreIx) (ga gb : BitVec 5) (off : BitVec 15)
  /-- BLT (R228). -/
  | blt (k : CoreIx) (ga gb : BitVec 5) (off : BitVec 15)
  /-- BGE (R228). -/
  | bge (k : CoreIx) (ga gb : BitVec 5) (off : BitVec 15)
  /-- BLTU (R228). -/
  | bltu (k : CoreIx) (ga gb : BitVec 5) (off : BitVec 15)
  /-- BGEU (R228). -/
  | bgeu (k : CoreIx) (ga gb : BitVec 5) (off : BitVec 15)
  /-- JMP (R229). -/
  | jmp (k : CoreIx) (off : BitVec 25)
  /-- JR (R229). -/
  | jr (k : CoreIx) (ga : BitVec 5)
  /-- CALL (R230). -/
  | call (k : CoreIx) (off : BitVec 25)
  /-- CALLR (R230). -/
  | callr (k : CoreIx) (ga : BitVec 5)
  /-- RET (R230). -/
  | ret (k : CoreIx)
  /-- MFC (R210). -/
  | mfc (k : CoreIx) (gd : BitVec 5) (cr : BitVec 10)
  /-- MTC (R210). -/
  | mtc (k : CoreIx) (ga : BitVec 5) (cr : BitVec 10)
  /-- DONE (R233). -/
  | done (k : CoreIx)
  /-- TRAP (R232). -/
  | trap (k : CoreIx) (code : Byte)
  /-- ERET (R255). -/
  | eret (k : CoreIx)
  /-- RPT (R243). -/
  | rpt (k : CoreIx) (next : Word)
  /-- LOOP (R247). -/
  | loop (k : CoreIx) (ga : BitVec 5) (n : BitVec 15)
  /-- SCOPY (R231): of the step field, whether it is two elements wide and whether it goes down. -/
  | scopy (k : CoreIx) (sz : BitVec 2) (two down : Bool)
  /-- SFILL (R231). -/
  | sfill (k : CoreIx) (sz step : BitVec 2) (gv : BitVec 5)
  /-- SCMP (R231). -/
  | scmp (k : CoreIx) (sz : BitVec 2) (two down : Bool) (gd : BitVec 5) (c : Bool)
  /-- SSEEK (R231). -/
  | sseek (k : CoreIx) (sz : BitVec 2) (two down : Bool) (gv gd : BitVec 5) (c : Bool)
  /-- SYNC (R232). -/
  | sync (k : CoreIx)
  /-- PRD (R257). -/
  | prd (k : CoreIx) (gd ga : BitVec 5) (sel : PrdSel)
  /-- PWR (R258). -/
  | pwr (k : CoreIx) (ga gb : BitVec 5)
  /-- ATAN2 (R259). -/
  | atan2 (k : CoreIx) (gd ga gb : BitVec 5)
  /-- SINCOS (R259). -/
  | sincos (k : CoreIx) (gd ga gb : BitVec 5) (cosine : Bool)
  /-- MAG (R259). -/
  | mag (k : CoreIx) (gd ga gb : BitVec 5)
  /-- DIV (R259). -/
  | div (k : CoreIx) (gd ga gb : BitVec 5) (remainder : Bool)
  /-- MZ (R260). -/
  | mz (k : CoreIx) (op : BitVec 4) (gd ga gb : BitVec 5) (func : BitVec 10)
  /-- MEZZANINE_ANSWER (R261). -/
  | mezzanineAnswer (status : BitVec 2) (w : Word) (cycles : Nat)
  /-- MZ_TIMEOUT (R261). -/
  | mzTimeout
  /-- LOAD_RETURN (R215). -/
  | loadReturn (k : CoreIx) (stall : Nat) (ecc : Bool)
  /-- STORE_ARRIVAL (R216). -/
  | storeArrival (k : CoreIx) (i : Fin 8)
  /-- SCOUT_RUN (R265). -/
  | scoutRun (k : CoreIx)
  /-- MOVE_RUN (R297). -/
  | moveRun (q : QpIx)
  /-- MOVE_CHANNEL_SERVE (R295). -/
  | moveChannelServe (bulk : Bool)
  /-- DESCRIPTOR_FETCH (R302). -/
  | descriptorFetch (m : McIx) (r : ReadRes)
  /-- MOVE_DESCRIPTOR (R303). -/
  | moveDescriptor (m : McIx) (r : MoveData)
  /-- LOOP_DESCRIPTOR (R311). -/
  | loopDescriptor (m : McIx)
  /-- WAIT_TICK (R312). -/
  | waitTick (m : McIx)
  /-- WAIT_TICK_END (R312). -/
  | waitTickEnd (m : McIx)
  /-- WAIT_SIGNAL (R313). -/
  | waitSignal (m : McIx)
  /-- WAIT_SIGNAL_WAKE (R313). -/
  | waitSignalWake (m : McIx)
  /-- WAIT_DRAIN (R314). -/
  | waitDrain (m : McIx)
  /-- WAIT_DRAIN_END (R314). -/
  | waitDrainEnd (m : McIx)
  /-- SIGNAL (R315). -/
  | signal (m : McIx)
  /-- END (R316). -/
  | endProgram (m : McIx)
  /-- STOP (R317). -/
  | stop (a : Agent) (m : McIx) (v : Word)
  /-- MOVE_STOP (R317). -/
  | moveStop (m : McIx)
  /-- DB_SQ_TAIL (R333). -/
  | dbSqTail (a : Agent) (q : QpIx) (v : Word)
  /-- DB_CQ_HEAD (R333). -/
  | dbCqHead (a : Agent) (q : QpIx) (v : Word)
  /-- ADM_EN (R332). -/
  | admEn (a : Agent) (v : Word)
  /-- SQ_FETCH (R343). -/
  | sqFetch (q : QpIx) (r : ReadRes)
  /-- SQ_READ_RETRY (R546). -/
  | sqReadRetry (q : QpIx) (r : ReadRes)
  /-- COMPLETION_RECORD (R339). -/
  | completionRecord (q : QpIx) (linkRefused : RecordRefusal)
  /-- MODERATION_TIMER (R347). -/
  | moderationTimer (v : VecIx)
  /-- MSIX_UNMASK (R348). -/
  | msixUnmask (v : Option VecIx)
  /-- QSTALL (R345). -/
  | qstall (q : QpIx)
  /-- QFAULT (R345). -/
  | qfault (q : QpIx)
  /-- D3HOT (R350). -/
  | d3hot
  /-- D0_RETURN (R350). -/
  | d0Return
  /-- FLR (R362). -/
  | flr
  /-- LINK_LOSS (R363). -/
  | linkLoss (lost : Bool)
  /-- BAR2_ACCESS (R328). -/
  | bar2Access (x : Word) (acc : Bar2Op) (ecc : Bool)
  /-- NOP (R336). -/
  | nop (q : QpIx)
  /-- IDENTIFY (R352). -/
  | identify (linkRefused : Option Nat)
  /-- CREATE_QP (R353). -/
  | createQp
  /-- DESTROY_QP (R354). -/
  | destroyQp
  /-- BIND_CHANNEL (R355). -/
  | bindChannel
  /-- LOAD_ROUTINE (R356). -/
  | loadRoutine (r : ReadRes)
  /-- CORE_HOLD (R356). -/
  | coreHold (k : CoreIx)
  /-- SET_FEATURE (R357). -/
  | setFeature
  /-- GET_FEATURE (R357). -/
  | getFeature
  /-- GET_LOG (R358). -/
  | getLog (linkRefused : Option Nat)
  /-- FAULT_ACK (R430). -/
  | faultAck
  /-- IMAGE_STAGE (R360). -/
  | imageStage (r : ReadRes)
  /-- IMAGE_COMMIT (R497). -/
  | imageCommit
  /-- TIME_SYNC (R361). -/
  | timeSync (linkRefused : Bool)
  /-- FIRE (R373). -/
  | fire (r : RuleIx)
  /-- RELEASE (R373). -/
  | release (a : Agent) (r : RuleIx) (v : Word)
  /-- FOLLOW_HOLD_END (R373). -/
  | followHoldEnd (r : RuleIx)
  /-- REFLEX_COMPARATOR_CROSSING (R371). -/
  | reflexComparatorCrossing (r : RuleIx) (q : Int)
  /-- ESTOP_INPUT (R380). -/
  | estopInput (chB on : Bool)
  /-- ESTOP_ON (R382). -/
  | estopOn
  /-- REFLEX_ESTOP_RESET (R380). -/
  | reflexEstopReset (a : Agent) (v : Word)
  /-- DISC (R381). -/
  | disc
  /-- CLOSE (R383). -/
  | close (a : Agent) (v : Word)
  /-- OPEN (R383). -/
  | openDe (a : Agent) (v : Word)
  /-- DE_AUX (R383). -/
  | deAux (k : Fin 4)
  /-- REFLEX_PLANE (R386). -/
  | reflexPlane
  /-- REFLEX_EVQ_FLUSH (R394). -/
  | reflexEvqFlush (a : Agent) (v : Word)
  /-- SET (R396). -/
  | setMark (a : Agent) (p : PortIx) (v : Word)
  /-- REWIND (R396). -/
  | rewind (a : Agent) (p : PortIx) (v : Word)
  /-- REWIND_OLDEST (R399). -/
  | rewindOldest (a : Agent) (p : PortIx) (v : Word)
  /-- FAULT_REPORT (R416). -/
  | faultReport (h : HookWrites)
  /-- RECOVERY (R423). -/
  | recovery (u : UnitId)
  /-- UNLOCK (R432). -/
  | unlock (a : Agent) (v : Word)
  /-- STRAP (R432). -/
  | strap
  /-- GO (R433). -/
  | go (a : Agent) (v : Word)
  /-- OVERDRAW (R449). -/
  | overdraw
  /-- TEMPERATURE_READ (R442). -/
  | temperatureRead (t : Vector Int 24)
  /-- V_PFW (R438). -/
  | vPfw (obs : PsuObs)
  /-- POWER_FAIL_WARNING (R439). -/
  | powerFailWarning
  /-- PRIMARY_OV (R415). -/
  | primaryOv
  /-- DRIVING_PORTS_HIZ (R164). -/
  | drivingPortsHiz
  /-- HOST_REQUESTS_END (R440). -/
  | hostRequestsEnd
  /-- COMB_SUPPLIES_OFF (R440). -/
  | combSuppliesOff
  /-- OUTPUTS_OFF (R440). -/
  | outputsOff
  /-- OVERLOAD (R444). -/
  | overload
  /-- DOMAIN_POWER_DOWN (R452). -/
  | domainPowerDown (a : Agent) (v : Word)
  /-- DOMAIN_POWER_UP (R451). -/
  | domainPowerUp (a : Agent) (v : Word)
  /-- DOMAIN_OFF (R452). -/
  | domainOff (n : Fin 32)
  /-- DRAIN_TIMEOUT (R453). -/
  | drainTimeout (n : Fin 32)
  /-- DOMAIN_UP (R450). -/
  | domainUp (n : Fin 32)
  /-- AUTO_GATE (R456). -/
  | autoGate (n : Fin 32)
  /-- FAN_FAIL (R457). -/
  | fanFail
  /-- CAP_MEASUREMENT (R461). -/
  | capMeasurement
  /-- ESR_PULSE (R461). -/
  | esrPulse (stepMilliVolt : Nat)
  /-- CAP_MEASUREMENT_END (R461). -/
  | capMeasurementEnd (energy : Option Nat) (h : HookWrites)
  /-- ISO_MEASUREMENT (R462). -/
  | isoMeasurement (c : CombIx) (delay : Byte) (h : HookWrites)
  /-- SLACK_MEASUREMENT (R463). -/
  | slackMeasurement (k : Fin 4) (slack : BitVec 16) (held100ms : Bool) (h : HookWrites)
  /-- ZENER_COMPARISON (R465). -/
  | zenerComparison (c : CombIx) (drift : Int) (h : HookWrites)
  /-- GAUGE_MINUTE (R460). -/
  | gaugeMinute (ratio : Byte)
  /-- HOURLY_ENTRY (R470). -/
  | hourlyEntry (offsetPpb : Option Int)
  /-- LEDGER_COMMIT (R470). -/
  | ledgerCommit
  /-- LEDGER_RECOVERY (R471). -/
  | ledgerRecovery
  /-- POWER_UP (R488). -/
  | powerUp
  /-- IMAGE_VERIFIED (R486). -/
  | imageVerified (norError : Bool) (h : HookWrites)
  /-- LOCAL_MEMORY_INITIALISED (R491). -/
  | localMemoryInitialised
  /-- ON_PERIOD (R493). -/
  | onPeriod (h : HookWrites)
  /-- FW_HALT (R494). -/
  | fwHalt
  /-- RESTART (R503). -/
  | restart (a : Agent) (v : Word)
  /-- RESTART_CAST_ON (R503). -/
  | restartCastOn
  /-- WARM (R504). -/
  | warm (a : Agent) (v : Word) (h : HookWrites)
  /-- USB_REQUEST (R500). -/
  | usbRequest (req : List Byte) (payload : List Byte)
  /-- USB_BUS_RESET (R495). -/
  | usbBusReset
  /-- IDENTIFY_CYCLE (R535). -/
  | identifyCycle (answer : Option (BitVec 2 × Word))
  /-- CARD_REMOVAL (R535). -/
  | cardRemoval
  /-- RELAY_RAIL_RETURN (R165). -/
  | relayRailReturn
  /-- LINK_UP (R363). -/
  | linkUp
  /-- ISO_BREACH (R415). -/
  | isoBreach (c : CombIx)
  /-- CORE_ECC (R415). -/
  | coreEcc (k : CoreIx) (addr : Word)
  /-- UNDEFINED_OPCODE (R218). -/
  | undefinedOpcode (k : CoreIx) (w : Word)
  /-- CARD_DETECT (R520). -/
  | cardDetect (fitted : Bool)
  /-- STRAP_FITTED (R537). -/
  | strapFitted
  /-- ADM_RDY (R329). -/
  | admRdy
  /-- BREAK_END (R139). -/
  | breakEnd (p : PortIx)
  /-- PME_STATUS_CLEAR (R350). -/
  | pmeStatusClear
  /-- FAN_FAIL_CLEAR (R542). -/
  | fanFailClear
  /-- IMAGE_COMMAND_ENDED (R351). -/
  | imageCommandEnded
  /-- LOSS_WITHOUT_WARNING (R499). -/
  | lossWithoutWarning (torn : Bool)
  /-- DO_TERMINAL_EDGE (R369). -/
  | doTerminalEdge (p : PortIx) (above : Bool)
  deriving DecidableEq, Repr

end Sys2Proof
end

