-- ==== Sys2Proof/Decode.lean ====
section
/-! DEFINITION. The commands that a word of spec/opcode_table.json spells: no row of the table gives bits, so no word spells a command. Beside
them, the instruction that a Zorath word stands for (R217, R218, Tables 7-7 and 7-8). -/

namespace Sys2Proof

/-- The command that the `nbits` bits of `w` spell: none, for the table gives no row bits. -/
def decodeTableWord (_nbits _w : Nat) : Option Instr := none

namespace Machine

/-- A word has an undefined opcode, a nonzero zero-field or an encoding called illegal (R218, R231, R247, R256, R257). -/
def undefinedWord (w : Word) : Bool :=
  let op := fld w 31 25
  let gd := fld w 24 20
  let gb := fld w 14 10
  let fn := fld w 9 0
  if 0x01 ≤ op ∧ op ≤ 0x11 then fn != 0
  else if op = 0x12 ∨ op = 0x13 ∨ op = 0x34 ∨ op = 0x35 then gb != 0 || fn != 0
  else if op = 0x18 ∨ op = 0x19 ∨ op = 0x1A ∨ op = 0x1B ∨ op = 0x1F ∨ op = 0x20 then false
  else if 0x1C ≤ op ∧ op ≤ 0x1E then fld w 14 5 != 0
  else if 0x28 ≤ op ∧ op ≤ 0x2F then false
  else if op = 0x31 ∨ op = 0x33 then false
  else if op = 0x30 ∨ op = 0x32 then gd == fld w 19 15
  else if op = 0x36 then fn != 0
  else if 0x38 ≤ op ∧ op ≤ 0x3E then false
  else if op = 0x3F ∨ op = 0x41 then gd != 0 || gb != 0 || fn != 0
  else if op = 0x40 then false
  else if op = 0x42 ∨ op = 0x46 ∨ op = 0x48 ∨ op = 0x49 ∨ op = 0x50 then fld w 24 0 != 0
  else if op = 0x44 ∨ op = 0x45 then fld w 19 10 != 0
  else if op = 0x47 then fld w 24 8 != 0
  else if op = 0x4A then gd != 0 || fld w 14 0 == 0 || decide (4096 < fld w 14 0)
  else if op = 0x4C then fld w 24 23 == 3 || fld w 20 0 != 0
  else if op = 0x4D then fld w 24 23 == 3 || fld w 15 0 != 0
  else if op = 0x4E then fld w 24 23 == 3 || fld w 20 16 != 0 || fn != 0
  else if op = 0x4F then fld w 24 23 == 3 || fn != 0
  else if op = 0x60 then decide (8 < fn)
  else if op = 0x61 then gd != 0 || fn != 0
  else if op = 0x64 ∨ op = 0x66 then fn != 0
  else if op = 0x65 ∨ op = 0x67 then decide (1 < fn)
  else if 0x70 ≤ op ∧ op ≤ 0x7F then false
  else true

/-- The instruction that a word stands for on core k, with the word after it for a repeat prefix: its fields under the format of its opcode; none
where the word has no meaning, and UNDEFINED_OPCODE is what executes (R217, R218). -/
def zorath (k : CoreIx) (w next : Word) : Option Instr :=
  let gd := w.extractLsb' 20 5
  let ga := w.extractLsb' 15 5
  let gb := w.extractLsb' 10 5
  let fn := w.extractLsb' 0 10
  let imm := w.extractLsb' 0 15
  if undefinedWord w then none
  else
    match fld w 31 25 with
    | 0x01 => some (.add k gd ga gb)
    | 0x02 => some (.sub k gd ga gb)
    | 0x03 => some (.and k gd ga gb)
    | 0x04 => some (.or k gd ga gb)
    | 0x05 => some (.xor k gd ga gb)
    | 0x06 => some (.sll k gd ga gb)
    | 0x07 => some (.srl k gd ga gb)
    | 0x08 => some (.sra k gd ga gb)
    | 0x09 => some (.mul k gd ga gb)
    | 0x0A => some (.mulh k gd ga gb)
    | 0x0B => some (.mulhu k gd ga gb)
    | 0x0C => some (.slt k gd ga gb)
    | 0x0D => some (.sltu k gd ga gb)
    | 0x0E => some (.min k gd ga gb)
    | 0x0F => some (.max k gd ga gb)
    | 0x10 => some (.adds k gd ga gb)
    | 0x11 => some (.subs k gd ga gb)
    | 0x12 => some (.clz k gd ga)
    | 0x13 => some (.abs k gd ga)
    | 0x18 => some (.addi k gd ga imm)
    | 0x19 => some (.andi k gd ga imm)
    | 0x1A => some (.ori k gd ga imm)
    | 0x1B => some (.xori k gd ga imm)
    | 0x1C => some (.slli k gd ga (w.extractLsb' 0 5))
    | 0x1D => some (.srli k gd ga (w.extractLsb' 0 5))
    | 0x1E => some (.srai k gd ga (w.extractLsb' 0 5))
    | 0x1F => some (.slti k gd ga imm)
    | 0x20 => some (.lui k gd (w.extractLsb' 0 20))
    | 0x28 => some (.lw k gd ga imm)
    | 0x29 => some (.lh k gd ga imm)
    | 0x2A => some (.lhu k gd ga imm)
    | 0x2B => some (.lb k gd ga imm)
    | 0x2C => some (.lbu k gd ga imm)
    | 0x2D => some (.sw k gd ga imm)
    | 0x2E => some (.sh k gd ga imm)
    | 0x2F => some (.sb k gd ga imm)
    | 0x30 => some (.lwP k gd ga imm)
    | 0x31 => some (.swP k gd ga imm)
    | 0x32 => some (.lhP k gd ga imm)
    | 0x33 => some (.shP k gd ga imm)
    | 0x34 => some (.tas k gd ga)
    | 0x35 => some (.lr k gd ga)
    | 0x36 => some (.sc k gd ga gb)
    | 0x38 => some (.beq k gd ga imm)
    | 0x39 => some (.bne k gd ga imm)
    | 0x3A => some (.blt k gd ga imm)
    | 0x3B => some (.bge k gd ga imm)
    | 0x3C => some (.bltu k gd ga imm)
    | 0x3D => some (.bgeu k gd ga imm)
    | 0x3E => some (.jmp k (w.extractLsb' 0 25))
    | 0x3F => some (.jr k ga)
    | 0x40 => some (.call k (w.extractLsb' 0 25))
    | 0x41 => some (.callr k ga)
    | 0x42 => some (.ret k)
    | 0x44 => some (.mfc k gd fn)
    | 0x45 => some (.mtc k gd fn)
    | 0x46 => some (.done k)
    | 0x47 => some (.trap k (w.extractLsb' 0 8))
    | 0x48 => some (.eret k)
    | 0x49 => some (.rpt k next)
    | 0x4A => some (.loop k ga imm)
    | 0x4C => some (.scopy k (w.extractLsb' 23 2) (w.getLsbD 22) (w.getLsbD 21))
    | 0x4D => some (.sfill k (w.extractLsb' 23 2) (w.extractLsb' 21 2) (w.extractLsb' 16 5))
    | 0x4E => some (.scmp k (w.extractLsb' 23 2) (w.getLsbD 22) (w.getLsbD 21) (w.extractLsb' 11 5) (w.getLsbD 10))
    | 0x4F => some (.sseek k (w.extractLsb' 23 2) (w.getLsbD 22) (w.getLsbD 21) (w.extractLsb' 16 5) (w.extractLsb' 11 5) (w.getLsbD 10))
    | 0x50 => some (.sync k)
    | 0x60 => some (.prd k gd ga ⟨gb, w.extractLsb' 0 4⟩)
    | 0x61 => some (.pwr k ga gb)
    | 0x64 => some (.atan2 k gd ga gb)
    | 0x65 => some (.sincos k gd ga gb (w.getLsbD 0))
    | 0x66 => some (.mag k gd ga gb)
    | 0x67 => some (.div k gd ga gb (w.getLsbD 0))
    | op => if 0x70 ≤ op then some (.mz k (w.extractLsb' 25 4) gd ga gb fn) else none

end Machine

end Sys2Proof
end

