-- ==== Sys2Proof/Machine/Angle.lean ====
section
/-! DEFINITION. Angles of the coprocessors (R259) and of the resolver groups (R131), computed to far below one LSB by shift-and-add rotation. -/

namespace Sys2Proof.Machine

/-- arctan 2^-i in units of 2^-64 turn. -/
def atanTable : List Int :=
  [
   2305843009213693952, 1361218612134873190, 719230530580881038, 365092647525521947,
   183254791493294829, 91716730292036216, 45869556482713130, 22936177926750895,
   11468263948075831, 5734153847876408, 2867079658191483, 1433540170878135,
   716770128161890, 358385069421298, 179192535378193, 89596267772540,
   44798133896700, 22399066949654, 11199533474990, 5599766737515,
   2799883368760, 1399941684380, 699970842190, 349985421095] ++
  [
   174992710548, 87496355274, 43748177637, 21874088818,
   10937044409, 5468522205, 2734261102, 1367130551,
   683565276, 341782638, 170891319, 85445659,
   42722830, 21361415, 10680707, 5340354,
   2670177, 1335088, 667544, 333772,
   166886, 83443, 41722, 20861]

/-- One rotation towards y = 0: x, y and the angle turned so far. -/
def vecStep (i : Nat) (t : Int) (v : Int × Int × Int) : Int × Int × Int :=
  let (x, y, z) := v
  if 0 ≤ y then (x + y / 2 ^ i, y - x / 2 ^ i, z + t) else (x - y / 2 ^ i, y + x / 2 ^ i, z - t)

def vecRun : Nat → List Int → Int × Int × Int → Int × Int × Int
  | _, [], v => v
  | i, t :: ts, v => vecRun (i + 1) ts (vecStep i t v)

/-- The angle of (x, y) in units of 2^-32 turn, rounded down. -/
def angleFloor (x y : Int) : Int :=
  let (x', y', z) := if x < 0 then (-x, -y, (2 : Int) ^ 63) else (x, y, 0)
  let (_, _, a) := vecRun 0 atanTable (x' * 2 ^ 60, y' * 2 ^ 60, z)
  -- points on an axis or a diagonal are exact
  if y = 0 then (if x < 0 then 2 ^ 31 else 0) else if x = 0 then (if 0 < y then 2 ^ 30 else 3 * 2 ^ 30) else a / 2 ^ 32

/-- One rotation by the angle still to turn. -/
def rotStep (i : Nat) (t : Int) (v : Int × Int × Int) : Int × Int × Int :=
  let (x, y, z) := v
  if 0 ≤ z then (x - y / 2 ^ i, y + x / 2 ^ i, z - t) else (x + y / 2 ^ i, y - x / 2 ^ i, z + t)

def rotRun : Nat → List Int → Int × Int × Int → Int × Int × Int
  | _, [], v => v
  | i, t :: ts, v => rotRun (i + 1) ts (rotStep i t v)

/-- 2^30 times cosine and sine of an angle in units of 2^-32 turn, rounded down. -/
def cosSinFloor (w : Word) : Int × Int :=
  let a := w.toInt
  -- into a quarter turn either way
  let (neg, b) := if (2 : Int) ^ 30 < a then (true, a - 2 ^ 31) else if a < -(2 : Int) ^ 30 then (true, a + 2 ^ 31) else (false, a)
  let (x, y, _) := rotRun 0 atanTable (2800459870029452954, 0, b * 2 ^ 32)
  let (c, s) := if neg then (-x, -y) else (x, y)
  (c / 2 ^ 32, s / 2 ^ 32)

end Sys2Proof.Machine
end

