-- ==== Sys2Proof/Config.lean ====
section
/-! DEFINITION. What an implementation or one individual module fixes, and the free values: constants with no body, so that no
proof can see what they are (log entries 9, 10 and 12). -/

namespace Sys2Proof.Config

/-- Fresh unconstrained words, indexed by the state's counter `free`: the values the manual bounds or names without stating (log entry 9). -/
opaque freeWord : Nat → Word

/-- The error of ATAN2 in units of 2^-32 turn, for the operands y and x; used clamped to the ±2^-26 turn of R259 (log entry 9). -/
opaque atan2Err : Word → Word → Int

/-- The error of SINCOS in LSB; used clamped to the ±4 LSB of R259 (log entry 9). -/
opaque sincosErr : Bool → Word → Int

/-- The error of MAG in LSB; used clamped to the ±1 LSB of R259 (log entry 9). -/
opaque magErr : Word → Word → Int

/-- Ordering variant of this module: SLV-4128-F0 with the fan kit, or SLV-4128-00 (R3, Table 18-5; log entry 12). -/
opaque variantF0 : Bool

/-- Serial number of this module, 16 ASCII bytes (R352, R518; log entry 12). -/
opaque serial : Vector Byte 16

/-- The Obanryn factory public key in boot ROM, X then Y (R432, R481; log entry 12). -/
opaque factoryKey : Vector Byte 64

/-- The digest of Obanryn's release key, in key slot 0 from manufacture (R482; log entry 12). -/
opaque releaseKeyDigest : Vector Byte 32

/-- SHA-256, uninterpreted (R482, R485; log entry 10). -/
opaque sha256 : List Byte → Vector Byte 32

/-- Whether a 64-byte signature (r, s) by a public key over a digest is valid under ECDSA P-256, uninterpreted (R432, R481, R482; log entry 10). -/
opaque ecdsaOk : List Byte → Vector Byte 32 → List Byte → Bool

end Sys2Proof.Config
end

