-- ==== Sys2Proof/Machine/State.lean ====
section
/-! DEFINITION. The state of the module as plain data, its reset value, and the reasons a step can stop. Each field's docstring
gives its name, its width, the rule or table and the file of spec/ that names it, and its reset value; a default value is the
cold-reset value. 'DESIGN CHOICE' marks a value the spec does not give (log entry 7), 'MODEL' a field of the model's own. -/

namespace Sys2Proof.Machine

/-- Why the machine stops with a fault. -/
inductive Fault where
  /-- A command carries operands that the part cannot be given (a data operand of the wrong length): raised by the meanings that
  take the bytes of an outside read. Safe: nothing is decided about it (log entry 2). -/
  | malformed (what : String)
  deriving DecidableEq, Repr

/-- Why a command has no meaning in the model. -/
inductive Refusal where
  /-- Raised only by an arm of `exec` whose command has no meaning yet. Safe. -/
  | notModelled (mnemonic : String)
  deriving DecidableEq, Repr

/-! ### Memories -/

/-- A sparse memory: (address, byte) pairs, addresses rising, no entry equal to 0, what an unlisted address reads (log entry 8). -/
abbrev Mem := List Host.Cell

/-! ### What leaves the module -/

/-- One thing the module sends outside, in the order it leaves (log entry 11). -/
inductive Emit where
  /-- A write to host memory at a bus address (R338, R339, R194, R315, R303). -/
  | hostWrite (addr : Nat) (bytes : List Byte)
  /-- An MSI-X message of a vector, with the address and data of its table entry (R326, R346). -/
  | msix (v : Nat) (msg : BitVec 96)
  /-- A PM_PME message (R350). -/
  | pme
  /-- A tick message on TICK_OUT (R54). -/
  | tickMsg (m : BitVec 128)
  /-- A cable-delay probe on TICK_IN (R56). -/
  | probe
  /-- A transaction on the mezzanine bus: command word, g[ga], g[gb] (R260). -/
  | mezz (cmd a b : Word)
  /-- A reply on the service port (R500). -/
  | usb (bytes : List Byte)
  /-- The answer of a BAR2 read (R328); poisoned when no bytes. -/
  | bar2 (bytes : Option (List Byte))
  /-- A character or break on a serial line: the port, the bit time in 16 ns steps, and the levels with how many half bits each lasts (R137, R138). -/
  | txChar (p : Nat) (bitTime : Nat) (levels : List (Bool × Nat))
  /-- A step pulse of a port, positive or negative (R126). -/
  | pulse (p : Nat) (up : Bool)
  deriving DecidableEq, Repr

/-! ### Ticks -/

/-- The points of a frame already passed (R41). -/
inductive Phase where
  | edge | dispatch | input | stage | seal
  deriving DecidableEq, Repr

/-- TICK_CTRL.ROLE (Table 2-7). -/
inductive Role where
  | standalone | master | follower
  deriving DecidableEq, Repr

/-- TICK_STAT.LINK_STATE (Table 2-9). -/
inductive LinkState where
  | free | acquire | locked | holdover
  deriving DecidableEq, Repr

/-- The follower's tick link (R53 to R60). -/
structure TickLink where
  /-- LINK_STATE; 2 bits; Table 2-9, 02; reset FREE -/
  state : LinkState := .free
  /-- HOP; 3 bits; Table 2-9, 02; reset 0 -/
  hop : Nat := 0
  /-- CHAIN_LONG; 1 bit; R55, 02; reset 0 -/
  chainLong : Bool := false
  /-- CAL_ERR; 1 bit; R57, 02; reset 0 -/
  calErr : Bool := false
  /-- CAL_DONE; 1 bit; R56, 02; reset 0 -/
  calDone : Bool := false
  /-- MARKER_LOST; 1 bit; R58, 02; reset 0 -/
  markerLost : Bool := false
  /-- TICK_LINK_DLY; 16 bits; R56, 02; reset 0 -/
  dly : Nat := 0
  /-- TICK_PHASE_ERR; 16 bits signed; R58, 02; reset 0 -/
  phaseErr : Int := 0
  /-- valid messages on consecutive ticks; count; R58, 02; reset DESIGN CHOICE 0 (log 7) -/
  good : Nat := 0
  /-- ticks within 16 LSB on consecutive ticks; count; R58, 02; reset DESIGN CHOICE 0 (log 7) -/
  near : Nat := 0
  /-- ticks without a valid marker; count; R58, 02; reset DESIGN CHOICE 0 (log 7) -/
  missed : Nat := 0
  /-- a valid marker arrived since the last tick edge; 1 bit; R58, 02; reset DESIGN CHOICE 0 (log 7) -/
  seen : Bool := false
  /-- cable-delay measurement running: probes sent, returned and the sum of the delays; R56, 02; reset none running -/
  cal : Option (Nat × Nat × Nat) := none
  /-- a measurement has ended without error since ACQUIRE was entered; 1 bit; R58, 02; reset DESIGN CHOICE 0 (log 7) -/
  measured : Bool := false
  /-- frames LOCKED since the last measurement; count; R56, 02; reset DESIGN CHOICE 0 (log 7) -/
  sinceCal : Nat := 0
  /-- a probe is outstanding in this frame; 1 bit; R56, 02; reset DESIGN CHOICE 0 (log 7) -/
  probeOut : Bool := false
  /-- period in force at the upstream module, as carried; 26 bits; R39, 02; reset the cold TICK_PERIOD, DESIGN CHOICE (log 7) -/
  carried : Word := 0x02001E84
  /-- EDGE_TS last carried; 64 bits; Table 2-2, 02; reset DESIGN CHOICE 0 (log 7) -/
  carriedTs : Nat := 0
  /-- the next acquisition tick edge, on the port clock; R59, 02; reset DESIGN CHOICE 0 (log 7) -/
  acqEdge : Int := 0
  /-- period in force upstream, adopted at the next tick edge; 26 bits; R39, Table 2-3, 02; reset none -/
  adopt : Option Word := none
  /-- the follower has locked since power-up; 1 bit; R58, 02; reset 0 -/
  everLocked : Bool := false
  deriving DecidableEq, Repr

/-- Tick generator and time base (chapter 02). -/
structure Tick where
  /-- time base; 64 bits, LSB 0.25 ns; R49, 02; reset 0 -/
  now : Nat := 0
  /-- the time base has started; 1 bit; R49, 02; reset 0 -/
  started : Bool := false
  /-- TICK_EDGE; 64 bits; R51, 02; reset 0 -/
  edge : Nat := 0
  /-- time since that edge on the port clock, LSB 0.25 ns; R41, R49, 02; reset 0 -/
  ofs : Nat := 0
  /-- frames completed since the tick started; count; R48, 02; reset 0 -/
  frames : Nat := 0
  /-- length L of the frame in progress in 4 ns steps; 18 bits; R36, 02; reset 7812 -/
  len : Nat := 7812
  /-- fraction accumulator; 8 bits; R36, 02; reset 0 -/
  acc : Nat := 0
  /-- steps by which a follower lengthens the frame in progress; R60, 02; reset 0 -/
  slew : Int := 0
  /-- point of the frame last passed; R41, 02; reset DESIGN CHOICE edge (log 7) -/
  phase : Phase := .edge
  /-- TICK_CTRL.ROLE; 2 bits; Table 2-7, 02; reset standalone -/
  role : Role := .standalone
  /-- TICK_CTRL.OUT_EN; 1 bit; Table 2-7, 02; reset 0 -/
  outEn : Bool := false
  /-- TICK_CTRL.DISC_EN; 1 bit; Table 2-7, 02; reset 0 -/
  discEn : Bool := false
  /-- TICK_CTRL.CAL_REQ; 1 bit; R56, 02; reset 0 -/
  calReq : Bool := false
  /-- TICK_PERIOD; 32 bits; Table 2-8, 02; reset 0x02001E84 -/
  period : Word := 0x02001E84
  /-- TICK_PERIOD_ACT; 26 bits; Table 2-6, 02; reset 0x02001E84 -/
  act : Word := 0x02001E84
  /-- pending period and the tick edges still to come; R38, 02; reset none -/
  pend : Option (Word × Nat) := none
  /-- TICK_OVR_CNT; 32 bits saturating; R44, 02; reset 0 -/
  ovrCnt : Nat := 0
  /-- TICK_STAT.OVR_OVF; 1 bit; Table 2-9, 02; reset 0 -/
  ovrOvf : Bool := false
  /-- TICK_NLOAD; 10 bits; R48, 02; reset 0 -/
  nload : Nat := 0
  /-- Needle cycles and budget B of the last frames, newest first, at most 1,024; R48, 02; reset empty -/
  loads : List (Nat × Nat) := []
  /-- NLOAD_HIGH may be raised again; 1 bit; R414, 14; reset 1 -/
  nloadArmed : Bool := true
  /-- TICK_BUD_LAST k; 20 bits each; R47, 02; reset 0 -/
  budLast : Vector Nat 16 := Vector.replicate 16 0
  /-- TICK_BUD_PEAK k; 20 bits each; R47, 02; reset 0 -/
  budPeak : Vector Nat 16 := Vector.replicate 16 0
  /-- snapshots of TICK_NOW_HI and TICK_EDGE_HI of the host; 32 bits each; R51, 02; reset 0 -/
  hostSnap : Word × Word := (0, 0)
  /-- snapshots of TICK_NOW_HI and TICK_EDGE_HI of the Supervisor; 32 bits each; R51, 02; reset 0 -/
  supSnap : Word × Word := (0, 0)
  /-- follower's link; R53 to R60, 02; reset as its fields -/
  link : TickLink := {}
  deriving DecidableEq, Repr

/-! ### Ports -/

/-- A port event record without its port number (Table 4-6). -/
structure EvRec where
  /-- TS; 64 bits; Table 4-6, 04 -/
  ts : Nat
  /-- DATA; 32 bits; Table 4-6, 04 -/
  data : Word
  /-- CODE; 8 bits; Table 4-6, 04 -/
  code : Nat
  /-- SEQ; 8 bits; Table 4-6, 04 -/
  seq : Nat
  deriving DecidableEq, Repr

/-- A capture block held by a port (Table 3-4): its 16 header bytes and its samples. -/
abbrev CapBlock := List Byte

/-- What a read captured for one agent at one port (R110, R142, R510). -/
structure PortCap where
  /-- PC_CNT_HI captured; 32 bits; R142, 04; reset 0 -/
  cntHi : Word := 0
  /-- PC_TS_HI captured; 32 bits; R142, 04; reset 0 -/
  tsHi : Word := 0
  /-- high half of PC_EVQ_POP captured; 32 bits; R110, 04; reset 0 -/
  evqHi : Word := 0
  /-- PC_EVQ_TS captured; 64 bits; R110, 04; reset 0 -/
  evqTs : Nat := 0
  deriving DecidableEq, Repr

/-- The registers software writes at a port (R100, R166, R291, R378). -/
structure PortRegs where
  /-- PC_MODE; 32 bits; Table 3-14, 03; reset 0 -/
  mode : Word := 0
  /-- PC_RANGE; 32 bits; Table 3-15, 03; reset 0 -/
  range : Word := 0
  /-- PC_LIMITS; 32 bits; Table 3-22, 03; reset 0 -/
  limits : Word := 0
  /-- PC_LOAD_REF; 32 bits; Table 3-21, 03; reset 0 -/
  loadRef : Word := 0
  /-- PC_OUT_SET; 32 bits; Table 3-16, 03; reset 0 -/
  outSet : Word := 0
  /-- PC_GRAFT; 32 bits; Table 5-10, 05; reset 0 -/
  graft : Word := 0
  /-- PC_SCOUT_TOL; 32 bits; Table 9-10, 09; reset 0 -/
  scoutTol : Word := 0
  /-- PC_SCOUT_PRED; 32 bits; Table 9-11, 09; reset 0 -/
  scoutPred : Word := 0
  /-- PC_SAFE; 32 bits; Table 12-6, 12; reset 0x20000000 -/
  safe : Word := 0x20000000
  /-- PC_TXQ_PUSH; 32 bits; Table 4-15, 04; reset 0 -/
  txPush : Word := 0
  deriving DecidableEq, Repr

/-- What is in force at a port (R68, R70, R271). -/
structure PortAct where
  /-- PC_MODE in effect; 32 bits; R68, 03; reset 0 -/
  mode : Word := 0
  /-- PC_RANGE in effect; 32 bits; R70, 03; reset 0 -/
  range : Word := 0
  /-- PC_LIMITS in effect; 32 bits; R70, 03; reset 0 -/
  limits : Word := 0
  /-- PC_LOAD_REF in effect; 32 bits; R70, 03; reset 0 -/
  loadRef : Word := 0
  /-- PC_SCOUT_TOL in effect; 32 bits; R271, 09; reset 0 -/
  scoutTol : Word := 0
  /-- PC_MODE that the changeover frame in progress leads to; R68, 03; reset none -/
  change : Option Word := none
  /-- frame count at the last write of a setting; count; R68, R70, 03; reset 0 -/
  wrote : Nat := 0
  /-- frame count at which the mode, or the changeover frame, took effect; count; R68, R77, R270, 03; reset 0 -/
  since : Nat := 0
  /-- function runs: its group is complete; 1 bit; R103, 04; reset 0 -/
  runs : Bool := false
  deriving DecidableEq, Repr

/-- What holds a pin above the tick commit (Table 1-3). -/
inductive Held where
  | free
  /-- the value of a rank, as its source gives it: clamped where the pin takes it (R84) -/
  | value (v : Int)
  /-- the level frozen by a HOLD safe state (R378) -/
  | level (v : Int)
  | hiz
  deriving DecidableEq, Repr

/-- The output of a port (R15, R43, R81). -/
structure PortOut where
  /-- staging writes since the last STAGE deadline, oldest first, with the routine's core where a routine made them; R43, 03; reset empty -/
  stg : List (Option CoreIx × Word) := []
  /-- value taken by a STAGE deadline and not yet applied; R43, 03; reset none -/
  taken : Option Word := none
  /-- Scout candidate for the coming tick: value and channel; R280, 09; reset none -/
  cand : Option (Word × ChIx) := none
  /-- PC_OUT_ACT; 32 bits; Table 3-17, 03; reset 0 -/
  act : Int := 0
  /-- DAC input for that target; R93, 03; reset 0 -/
  dac : Int := 0
  /-- target at the last tick edge, as a driving port shows it; 32 bits; R152, 05; reset 0 -/
  edgeAct : Int := 0
  /-- the stage is told to drive; 1 bit; R67, 03; reset 0 -/
  on : Bool := false
  /-- the stage drives (not high-impedance): told to, and neither temperature nor the field supply forbids it; 1 bit; R67, R81, R87, R104, 03; reset 0 -/
  driving : Bool := false
  /-- the field supply has the output off; 1 bit; R104, 04; reset 0 -/
  fs : Bool := false
  /-- level at `levelAt`, in codes; R81, 03; reset 0 -/
  level : Int := 0
  /-- time base at which the output had `level`; R81, 03; reset 0 -/
  levelAt : Nat := 0
  /-- the present hold of ranks 1 to 3; Table 1-3, 01; reset free -/
  held : Held := .free
  /-- the hold is of rank 1; Table 1-3, 01; reset 0 -/
  bound : Bool := false
  /-- a hold has ended since the last tick edge, so the graft path waits for the next; R17, R151, 05; reset 0 -/
  waits : Bool := false
  /-- the value a HOLD safe state froze; R378, 12; reset none -/
  frozen : Option Int := none
  /-- value the port would commit: S of R150; for PULSE_OUT the function's own level; R150, 05; reset 0 -/
  s : Int := 0
  /-- THERM; 1 bit; R87, 03; reset 0 -/
  therm : Bool := false
  /-- cooled, resuming at the next tick edge: the frame count then; R87, 03; reset none -/
  thermWait : Option Nat := none
  /-- PC_OUT_ACT kept its target through the frame so far; 1 bit; R89, 03; reset 0 -/
  steady : Bool := false
  /-- the slew limit acted or HELD was set in the frame so far; 1 bit; R89, 03; reset 0 -/
  upset : Bool := false
  deriving DecidableEq, Repr

/-- The measurements of a port (R75 to R78, R88). -/
structure PortIn where
  /-- PC_IN_VAL; 32 bits; Table 3-18, 03; reset 0 -/
  inVal : Word := 0
  /-- PC_RB_VAL; 32 bits; Table 3-19, 03; reset 0 -/
  rbVal : Word := 0
  /-- PC_LOAD_VAL; 32 bits; Table 3-20, 03; reset 0 -/
  loadVal : Word := 0
  /-- tick sample or quantity latched at T+0, not yet shown; R76, 03; reset 0 -/
  sample : Int := 0
  /-- its RAW or line at T+0; R114, 04; reset 0 -/
  sampleRaw : Bool := false
  /-- raw code of the sample taken at the last tick edge, which conversion 0 delivers; R75, R281, 03; reset none -/
  tickRaw : Option Int := none
  /-- conversions of the frame in progress, newest first, with saturation; R75, 03; reset empty -/
  conv : List (Int × Bool) := []
  /-- conversions of the frame just ended, in order, with their frame's edge; R78, 03; reset empty -/
  ended : List (Int × Bool) := []
  /-- edge that opened the frame just ended; R78, 03; reset 0 -/
  endedEdge : Nat := 0
  /-- HELD at the last tick edge; R78, 03; reset 0 -/
  heldEdge : Bool := false
  /-- HELD at the edge that opened the frame just ended; R78, 03; reset 0 -/
  endedHeld : Bool := false
  /-- the frame just ended qualifies for diagnosis; R89, 03; reset 0 -/
  endedQual : Bool := false
  /-- target that held through the frame just ended; R90, 03; reset 0 -/
  endedAct : Int := 0
  /-- the output was on at the edge that ended that frame; 1 bit; R116, R117, 04; reset 0 -/
  endedOn : Bool := false
  /-- most recent conversion; R81, 03; reset 0 -/
  last : Int := 0
  /-- OVRANGE was set at the last tick edge; 1 bit; R91, 03; reset 0 -/
  ovrAtEdge : Bool := false
  /-- capture blocks held, one list per frame, oldest first; R308, 10; reset empty -/
  cap : List (List CapBlock) := []
  /-- PC_CAP_LOST; 32 bits saturating; R308, 10; reset 0 -/
  capLost : Nat := 0
  deriving DecidableEq, Repr

/-- A diagnostic: its count and whether it stands established (R89, R91). -/
structure Diag where
  /-- qualifying frames or tick edges counted; R89, 03; reset 0 -/
  n : Nat := 0
  /-- established and not yet absent; R91, 03; reset 0 -/
  est : Bool := false
  deriving DecidableEq, Repr

/-- PC_STAT bits a port keeps (Tables 3-24 and 4-5), and the counts behind them. -/
structure PortStat where
  /-- CFG_REJ; 1 bit; Table 3-24, 03; reset 0 -/
  cfgRej : Bool := false
  /-- OVF; 1 bit; Table 3-24, 03; reset 0 -/
  ovf : Bool := false
  /-- FUNC.HALT; 1 bit; R103, 04; reset 0 -/
  halt : Bool := false
  /-- FUNC [19]; 1 bit; Table 4-5, 04; reset 0 -/
  f3 : Bool := false
  /-- FUNC [18] (QERR, SKIP, HS); 1 bit; Table 4-5, 04; reset 0 -/
  f2 : Bool := false
  /-- FUNC [17] (RAW, MISM, LINE_FLT, LOSS, ERR, BREAK, EMPTY); 1 bit; Table 4-5, 04; reset 0 -/
  f1 : Bool := false
  /-- FUNC [16] (STATE, ON, LINE, ACTIVE, LOCK, BUSY, TX_BUSY, READY); 1 bit; Table 4-5, 04; reset 0 -/
  f0 : Bool := false
  /-- MODE_CHG; 1 bit; R68, 03; reset 0 -/
  modeChg : Bool := false
  /-- CAL_BUSY; 1 bit; Table 3-24, 03; reset 0 -/
  calBusy : Bool := false
  /-- CAL_FAIL; 1 bit; R95, R97, 03; reset 0 -/
  calFail : Bool := false
  /-- ILIM_ACT; 1 bit; R82, 03; reset 0 -/
  ilim : Bool := false
  /-- SLEW_ACT; 1 bit; R81, 03; reset 0 -/
  slew : Bool := false
  /-- CLAMP; 1 bit; R74, 03; reset 0 -/
  clamp : Bool := false
  /-- OVRANGE; 1 bit; R73, 03; reset 0 -/
  ovrange : Bool := false
  /-- COMPLY; 1 bit; R83, 03; reset 0 -/
  comply : Bool := false
  /-- SHORT; 1 bit; R90, 03; reset 0 -/
  short : Bool := false
  /-- OPEN; 1 bit; R90, 03; reset 0 -/
  opn : Bool := false
  /-- DRIFT; 1 bit; R90, 03; reset 0 -/
  drift : Bool := false
  /-- DEVIATION; 1 bit; R90, 03; reset 0 -/
  dev : Bool := false
  /-- RB_VALID; 1 bit; R77, 03; reset 0 -/
  rbValid : Bool := false
  /-- cell held in IDLE after failed calibration; 1 bit; R95, 03; reset 0 -/
  cellFail : Bool := false
  /-- count behind SHORT; R90, 03; reset 0 -/
  dShort : Diag := {}
  /-- count behind OPEN; R90, 03; reset 0 -/
  dOpen : Diag := {}
  /-- count behind DRIFT; R90, 03; reset 0 -/
  dDrift : Diag := {}
  /-- count behind DEVIATION; R90, 03; reset 0 -/
  dDev : Diag := {}
  /-- count behind DO_MISMATCH; R117, 04; reset 0 -/
  dMism : Diag := {}
  /-- learning: frames taken and the sum of R in units of 4 ohm / 2^32; R92, 03; reset none -/
  learn : Option (Nat × Nat) := none
  /-- frame count at which learning began; count; R92, 03; reset 0 -/
  learnAt : Nat := 0
  /-- calibration coefficients per mode and range, in the order of `calIx`; 4 x 16 bits each; R93, 03; reset 0 -/
  cal : Vector CalSet 18 := Vector.replicate 18 {}
  deriving DecidableEq, Repr

/-- Counting, stepping, resolver and SSI results of a port (R119 to R135). -/
structure PortCnt where
  /-- 48-bit position counter, signed; R119, 04; reset 0 -/
  cnt : Int := 0
  /-- wrap count; 16 bits saturating; R404, 13; reset 0 -/
  wraps : Nat := 0
  /-- PC_CNT_LO and CNT_HI shown; 48 bits; R120, 04; reset 0 -/
  regCnt : Int := 0
  /-- PC_CNT_HI.WRAPS shown; 16 bits; R120, 04; reset 0 -/
  regWraps : Nat := 0
  /-- PC_TS shown; 64 bits; R120, 04; reset 0 -/
  regTs : Nat := 0
  /-- count latched at T+0, not yet shown; R120, 04; reset 0 -/
  capCnt : Int := 0
  /-- wrap count latched at T+0; R120, 04; reset 0 -/
  capWraps : Nat := 0
  /-- stamp of the last counted edge; 64 bits; R120, 04; reset 0 -/
  edgeTs : Nat := 0
  /-- stamp latched at T+0; R120, 04; reset 0 -/
  capTs : Nat := 0
  /-- net change over the frame just ended; R120, 04; reset 0 -/
  net : Int := 0
  /-- filtered line or comparator output RAW; 1 bit; R114, R118, 04; reset DESIGN CHOICE 0 (log 7) -/
  line : Bool := false
  /-- debounced STATE of a DI port; 1 bit; R114, 04; reset 0 -/
  state : Bool := false
  /-- stamp of the RAW edge of the stable period running, if any; R114, 04; reset none -/
  debTs : Option Nat := none
  /-- QUAD_ERR posted in this frame; 1 bit; R122, 04; reset 0 -/
  qerr : Bool := false
  /-- pulses of the frame still to emit; R126, 04; reset 0 -/
  left : Nat := 0
  /-- pulses of the frame, signed; R126, 04; reset 0 -/
  m : Int := 0
  /-- pulses emitted in the frame; R126, 04; reset 0 -/
  emitted : Int := 0
  /-- PWM high time in force, and the one the running period uses; R128, 04; reset 0 -/
  pwm : Nat := 0
  /-- high time of the running PWM period; R128, 04; reset 0 -/
  pwmRun : Nat := 0
  /-- PWM periods stopped by an action, until a tick commit; 1 bit; R17, R376, 12; reset 0 -/
  stopped : Bool := false
  /-- LINE_FLT: the differential voltage stays within its band; 1 bit; R118, 04; reset 0 -/
  flt : Bool := false
  /-- in LOSS; 1 bit; R133, 04; reset 0 -/
  loss : Bool := false
  /-- velocity of the resolver loop; R131, 04; reset 0 -/
  vel : Int := 0
  /-- demodulated amplitude of a winding port; R131, 04; reset 0 -/
  amp : Int := 0
  /-- SSI transfer in progress: its first falling edge; R134, 04; reset none -/
  ssi : Option Nat := none
  /-- the transfer in progress has been broken off by an action; 1 bit; R376, 12; reset 0 -/
  ssiFail : Bool := false
  /-- time the SSI clock last became idle; R134, 04; reset 0 -/
  ssiIdle : Nat := 0
  /-- SSI result awaiting INPUT_READY: value and stamp; R135, 04; reset none -/
  ssiRes : Option (Nat × Nat) := none
  deriving DecidableEq, Repr

/-- Event queue of a port (R108, R395). -/
structure PortEvq where
  /-- unread records, oldest first, at most 64; R108, 04; reset empty -/
  unread : List EvRec := []
  /-- retained records, oldest first; R395, 13; reset empty -/
  ret : List EvRec := []
  /-- the mark, as read pointer minus mark in records; MARK_VALID and MARKED; R396, 13; reset none -/
  mark : Option Int := none
  /-- MARK_LOST; 1 bit; R397, 13; reset 0 -/
  markLost : Bool := false
  /-- RW_FAIL; 1 bit; R398, 13; reset 0 -/
  rwFail : Bool := false
  /-- PC_EVQ_LOST; 32 bits saturating; R111, 04; reset 0 -/
  lost : Nat := 0
  /-- records produced; 8 bits modulo 256; R109, 04; reset 0 -/
  seq : Nat := 0
  deriving DecidableEq, Repr

/-- Serial transmit and receive of a port (R137 to R139). -/
structure PortTx where
  /-- transmit queue, oldest first, at most 256, bit 8 a break; R138, 04; reset empty -/
  q : List (BitVec 9) := []
  /-- PC_TXQ_STAT.DROP; 1 bit; R138, 04; reset 0 -/
  drop : Bool := false
  /-- character on the line; R138, 04; reset none -/
  cur : Option (BitVec 9) := none
  /-- start bit of the character being received; R139, 04; reset none -/
  rx : Option Nat := none
  deriving DecidableEq, Repr

/-- Scout prediction of a port (R269 to R272). -/
structure PortPred where
  /-- quantities at the last tick edges, newest first, at most three; R270, 09; reset empty -/
  hist : List Int := []
  /-- prediction for the coming tick; R271, 09; reset none -/
  pred : Option Int := none
  /-- the port takes part (valid mode and role) at the moment predictions are fixed; R274, 09; reset 0 -/
  fixed : Bool := false
  /-- sealed band half-width; R272, 09; reset none -/
  band : Option Nat := none
  /-- window comparator in band at the last tick edge; 1 bit; R281, 09; reset 0 -/
  inBand : Bool := false
  /-- prediction of the tick edge just passed, for GREY; R281, 09; reset none -/
  prevPred : Option (Int × Nat) := none
  deriving DecidableEq, Repr

/-- One Port Cell. -/
structure Port where
  /-- registers; reset as its fields -/
  r : PortRegs := {}
  /-- settings in effect; reset as its fields -/
  a : PortAct := {}
  /-- output; reset as its fields -/
  o : PortOut := {}
  /-- measurements; reset as its fields -/
  i : PortIn := {}
  /-- status; reset as its fields -/
  st : PortStat := {}
  /-- counter; reset as its fields -/
  c : PortCnt := {}
  /-- event queue; reset as its fields -/
  ev : PortEvq := {}
  /-- serial; reset as its fields -/
  tx : PortTx := {}
  /-- Scout prediction; reset as its fields -/
  p : PortPred := {}
  /-- captures of the agents that have read; R510, 18; reset empty (all 0) -/
  caps : List (Agent × PortCap) := []
  /-- PC_SAFE.LOCK set by Cast-on; 1 bit; R377, 12; reset 0 -/
  safeLock : Bool := false
  deriving DecidableEq, Repr

/-! ### Combs and graft pairs -/

/-- PC_GRAFT_STAT.MODE_ACT (Table 5-11). -/
inductive GMode where
  | bypass | observe | substitute | blend | hold | arming | releasing
  deriving DecidableEq, Repr

/-- A graft pair (chapter 05). -/
structure Pair where
  /-- MODE_ACT; 3 bits; Table 5-11, 05; reset BYPASS -/
  mode : GMode := .bypass
  /-- COIL; 1 bit; Table 5-11, 05; reset 0 -/
  coil : Bool := false
  /-- AUX_OPEN; 1 bit; Table 5-11, 05; reset 0 -/
  auxOpen : Bool := false
  /-- LINK; 1 bit; R144, 05; reset as latched, DESIGN CHOICE open (log 7) -/
  link : Bool := false
  /-- ALPHA; 16 bits; R159, 05; reset 0 -/
  alpha : Nat := 0
  /-- alpha at the ramp's start and the edge where it started; R159, 05; reset (0, 0) -/
  ramp : Nat × Nat := (0, 0)
  /-- ERR; 4 bits; Table 5-11, 05; reset 0 -/
  err : Nat := 0
  /-- request pending for the next tick edge, with the frame count at its write; R154, 05; reset none -/
  req : Option (Word × Nat) := none
  /-- edge or instant at which ARMING or RELEASING began; R157, R158, 05; reset 0 -/
  since : Nat := 0
  /-- the contact has been reported open in ARMING, or reported closed for 500 us in RELEASING; 1 bit; R157, R158, 05; reset 0 -/
  reported : Bool := false
  /-- the driving port regenerates; 1 bit; R158, 05; reset 0 -/
  regen : Bool := false
  /-- last regenerated value r; R160, 05; reset 0 -/
  rVal : Int := 0
  /-- the value that HOLD keeps; R150, 05; reset 0 -/
  hold : Int := 0
  /-- the contact failed to close; 1 bit; R165, 05; reset 0 -/
  closeFail : Bool := false
  /-- a warm reset's MODE change waits for BYPASS; 1 bit; R162, 05; reset 0 -/
  warmWait : Bool := false
  deriving DecidableEq, Repr

/-- Reader sequence of a Comb (R141). -/
inductive RdrSeq where
  | idle
  /-- waiting for DLY; the character to present -/
  | data (c : Byte)
  | strobe
  | inStrobe
  deriving DecidableEq, Repr

/-- A Comb (chapters 03, 04, 18). -/
structure Comb where
  /-- CB_FS_STAT.VOLT; 16 bits, 10 mV; R104, 04; reset 0 -/
  volt : BitVec 16 := 0
  /-- CB_FS_STAT.OVC; 1 bit; R104, 04; reset 0 -/
  ovc : Bool := false
  /-- CB_FS_STAT.LOW; 1 bit; R104, 04; reset 0 -/
  low : Bool := false
  /-- dependent outputs are off: LOW or the 100 ms of an overcurrent; 1 bit; R104, 04; reset 0 -/
  fsOff : Bool := false
  /-- outputs resume at the next tick edge; 1 bit; R104, 04; reset 0 -/
  fsResume : Bool := false
  /-- CB_CAL_REQ; 8 bits; R98, 03; reset 0 -/
  calReq : BitVec 8 := 0
  /-- CB_CAL_STAT.BUSY and PORT; R98, 03; reset none -/
  calPort : Option (Fin 8) := none
  /-- frame count from which the 256 frames of that calibration run; count; R96, R98, 03; reset 0 -/
  calFrom : Nat := 0
  /-- CB_ZENER; 32 bits; Table 18-9, 18; reset 0 -/
  zener : Word := 0
  /-- reader history, newest first, at most 256; R141, 04; reset empty -/
  hist : List Byte := []
  /-- reader history offset h; R141, 04; reset 0 -/
  h : Nat := 0
  /-- reader sequence; R141, 04; reset idle -/
  seq : RdrSeq := .idle
  /-- data lines presented; 8 bits; R141, 04; reset DESIGN CHOICE 0 (log 7) -/
  lines : Byte := 0
  /-- STROBE; 1 bit; R141, 04; reset 0 -/
  strobe : Bool := false
  deriving DecidableEq, Repr

/-! ### Queue entries -/

/-- A command fetched from a queue (Table 11-3) and its place in the completion order. -/
structure Cmd where
  /-- queue pair; R330, 11 -/
  q : QpIx
  /-- index of the entry; 32-bit count; R331, 11 -/
  k : Nat
  /-- OPC; 8 bits; Table 11-3, 11 -/
  opc : Nat
  /-- NOIRQ; 1 bit; Table 11-3, 11 -/
  noirq : Bool
  /-- CID; 16 bits; Table 11-3, 11 -/
  cid : Nat
  /-- TARGET; 16 bits; Table 11-3, 11 -/
  target : Nat
  /-- ADDR; 64 bits; Table 11-3, 11 -/
  addr : Nat
  /-- PARAM; 48 bytes; Table 11-3, 11 -/
  param : List Byte
  /-- place in the order in which entries were fetched, over all queues; R342, 11 -/
  seq : Nat := 0
  deriving DecidableEq, Repr

/-- A command that has ended and awaits its record (Table 11-5). -/
structure Done where
  /-- index of the entry; R331, 11 -/
  k : Nat
  /-- TS; 64 bits; Table 11-5, 11 -/
  ts : Nat
  /-- CID; 16 bits; Table 11-5, 11 -/
  cid : Nat
  /-- STATUS; 8 bits; Table 11-6, 11 -/
  status : Nat
  /-- DETAIL; 8 bits; Table 11-6, 11 -/
  detail : Nat
  /-- RESULT; 32 bits; Table 11-5, 11 -/
  result : Nat
  /-- NOIRQ of the entry; 1 bit; Table 11-3, 11 -/
  noirq : Bool
  deriving DecidableEq, Repr

/-- A queue pair (R330, R331, Table 11-14). -/
structure Qp where
  /-- VALID; 1 bit; Table 11-14, 11; reset 0 -/
  valid : Bool := false
  /-- submission ring base; 64 bits; R330, 11; reset 0 -/
  sq : Nat := 0
  /-- completion ring base; 64 bits; R330, 11; reset 0 -/
  cq : Nat := 0
  /-- done-head word address; 64 bits; R330, 11; reset 0 -/
  head : Nat := 0
  /-- DEPTH_LOG2; 4 bits; Table 11-14, 11; reset 0 -/
  dlog : Nat := 0
  /-- VECTOR; 10 bits; Table 11-14, 11; reset 0 -/
  vec : Nat := 0
  /-- t; 32 bits; R331, 11; reset 0 -/
  t : Nat := 0
  /-- f; 32 bits; R331, 11; reset 0 -/
  f : Nat := 0
  /-- d; 32 bits; R331, 11; reset 0 -/
  d : Nat := 0
  /-- c; 32 bits; R331, 11; reset 0 -/
  c : Nat := 0
  /-- commands fetched and not yet taken, oldest first; R342, 11; reset empty -/
  waiting : List Cmd := []
  /-- commands ended, record not yet written; R344, 11; reset empty -/
  done : List Done := []
  /-- STALL; 1 bit; R345, 11; reset 0 -/
  stall : Bool := false
  /-- QP_STAT.FAULT; 1 bit; R345, 11; reset 0 -/
  fault : Bool := false
  /-- the QFAULT threshold has been reached in this stall; 1 bit; R345, 11; reset 0 -/
  faulted : Bool := false
  /-- DB_ERR; 1 bit; R333, 11; reset 0 -/
  dbErr : Bool := false
  /-- submission reads are being refused; 1 bit; R546, 11; reset 0 -/
  refused : Bool := false
  /-- doorbells: tail made fetchable and arrival time, newest first; R361, 11; reset empty -/
  bells : List (Nat × Nat) := []
  deriving DecidableEq, Repr

/-! ### Channels -/

/-- CH_STATE.STATE (R197). -/
inductive ChState where
  | idle | active | suspended | posting | check | fenced
  deriving DecidableEq, Repr

/-- CH_STATE.WAIT (Table 6-14). -/
inductive ChWait where
  | executing | waitf | inputReady | grant | core | data | move
  deriving DecidableEq, Repr

/-- A channel command entry read by the engine (Table 6-1). -/
structure Cce where
  /-- OP; 8 bits; Table 6-1, 06 -/
  op : Nat
  /-- FLAGS; 8 bits; Table 6-1, 06 -/
  flags : BitVec 8
  /-- REG_MASK; 16 bits; Table 6-1, 06 -/
  mask : BitVec 16
  /-- COUNT; 24 bits; Table 6-1, 06 -/
  count : Nat
  /-- byte 7; Table 6-1, 06 -/
  rsvd : Nat
  /-- ADDR; 64 bits; Table 6-1, 06 -/
  addr : Nat
  deriving DecidableEq, Repr

/-- A data segment of a device operation (R176). -/
structure Seg where
  /-- address; 64 bits; R176, 06 -/
  addr : Nat
  /-- bytes; 24 bits; R176, 06 -/
  count : Nat
  /-- DROP; 1 bit; R173, 06 -/
  drop : Bool
  deriving DecidableEq, Repr

/-- A device operation being prepared or running (R176 to R184). -/
structure Op where
  /-- OP byte of the first entry; R179, 06 -/
  op : Nat
  /-- data segments in order; R176, 06 -/
  segs : List Seg
  /-- the data area is complete and, for EXEC_W, fetched; R177, 06 -/
  ready : Bool
  /-- data to copy into the window; R177, 06 -/
  data : List Byte
  /-- order of readiness; R182, 06 -/
  since : Nat
  /-- core that runs it; R182, 06 -/
  core : Option CoreIx
  deriving DecidableEq, Repr

/-- One entry of a Scout commit buffer (R275). -/
inductive BufEntry where
  /-- a store to data SRAM, cluster SRAM or local memory: address as in `Store`, bytes -/
  | store (addr : Nat) (bytes : List Byte)
  /-- a store to PC_OUT_SET or PWR -/
  | out (p : PortIx) (v : Word)
  /-- an MTC to CX k -/
  | cx (k : Fin 16) (v : Word)
  /-- a mezzanine instruction with gd = g0 -/
  | mz (cmd a b : Word)
  deriving DecidableEq, Repr

/-- SC_STAT.OUTCOME (Table 9-5). -/
inductive Outcome where
  | notRun | hit | miss | abort | curtailed | depInvalid
  deriving DecidableEq, Repr

/-- Where the Scout run of the frame stands (R264 to R268). -/
inductive ScRun where
  | none
  /-- triggered, waiting for its core; granted or not -/
  | waiting (granted : Bool)
  | running
  /-- ended at DONE -/
  | ended
  | sealed
  /-- aborted with a cause of SC_STAT.CAUSE -/
  | aborted (cause : Nat)
  | curtailed
  deriving DecidableEq, Repr

/-- The Scout lane of a channel (chapter 09). -/
structure Scout where
  /-- SC_CTRL; 32 bits; Table 9-13, 09; reset 0 -/
  ctrl : Word := 0
  /-- SC_DEP_A; 32 bits; Table 9-13, 09; reset 0xFFFFFFFF -/
  depA : Word := 0xFFFFFFFF
  /-- SC_DEP_B; 32 bits; Table 9-13, 09; reset 0xFFFFFFFF -/
  depB : Word := 0xFFFFFFFF
  /-- SC_CTRL in force; R290, 09; reset 0 -/
  ctrlAct : Word := 0
  /-- dependency words in force; R290, 09; reset all ones -/
  depAct : Word × Word := (0xFFFFFFFF, 0xFFFFFFFF)
  /-- SC_STAT.CAUSE; 8 bits; Table 9-13, 09; reset 0 -/
  cause : Nat := 0
  /-- SC_STAT.GREY; 1 bit; R281, 09; reset 0 -/
  grey : Bool := false
  /-- SC_STAT.COLLIDE; 1 bit; R283, 09; reset 0 -/
  collide : Bool := false
  /-- SC_STAT.CNT_OVF; 1 bit; R286, 09; reset 0 -/
  ovf : Bool := false
  /-- SC_STAT.OUTCOME; 3 bits; R279, 09; reset NOT_RUN -/
  outcome : Outcome := .notRun
  /-- last decided outcomes, newest first, at most 256, true for HIT: SC_STAT.RATE; R286, 09; reset empty -/
  rate : List Bool := []
  /-- SC_HIT_CNT; 32 bits saturating; R286, 09; reset 0 -/
  hits : Nat := 0
  /-- SC_MISS_CNT; 32 bits saturating; R286, 09; reset 0 -/
  misses : Nat := 0
  /-- SCOUT_ABORT_CNT; 32 bits saturating; R286, 09; reset 0 -/
  aborts : Nat := 0
  /-- SC_MISS_INFO.PORT; 8 bits; R287, 09; reset 0 -/
  missPort : Nat := 0
  /-- SC_MISS_INFO.DEV; 24 bits signed; R287, 09; reset 0 -/
  missDev : Int := 0
  /-- the deviation is of an analogue port and waits for INPUT_READY; R287, 09; reset 0 -/
  missWait : Bool := false
  /-- SC_CYC.BUF_PEAK; 7 bits; Table 9-13, 09; reset 0 -/
  peak : Nat := 0
  /-- SC_CYC.CYC; 20 bits; Table 9-13, 09; reset 0 -/
  cyc : Nat := 0
  /-- the run of the frame; R264, 09; reset none -/
  run : ScRun := .none
  /-- the channel has had its run in this frame; R264, 09; reset 0 -/
  ran : Bool := false
  /-- entries buffered in the frame, released or discarded; Table 9-7, 09; reset 0 -/
  wrote : Nat := 0
  /-- commit buffer, oldest first, at most 64; R275, 09; reset empty -/
  buf : List BufEntry := []
  /-- released entries still to perform; R280, 09; reset empty -/
  release : List BufEntry := []
  /-- core of the run; R264, 09; reset 0 -/
  core : CoreIx := 0
  /-- dependency set of the run, as ports without repeats; R269, 09; reset empty -/
  deps : List PortIx := []
  /-- candidate ports of the last sealed run; R447, 15; reset none -/
  lastCands : Option Nat := none
  /-- a HIT occurred while the present command was outstanding; R285, 09; reset 0 -/
  hitCmd : Bool := false
  /-- reserved under the Scout loop of the last pass; R447, 15; reset 0 -/
  granted : Bool := false
  deriving DecidableEq, Repr

/-- The binding of a channel (R168). -/
structure Bind where
  /-- BOUND; 1 bit; Table 6-14, 06; reset 0 -/
  bound : Bool := false
  /-- MOVE_EN and MOVE_CH; R168, 06; reset none -/
  mc : Option McIx := none
  /-- CORE; 4 bits; Table 6-14, 06; reset 0 -/
  core : CoreIx := 0
  /-- ANY_CORE; 1 bit; Table 6-14, 06; reset 0 -/
  anyCore : Bool := false
  /-- PRIO; 3 bits; Table 6-14, 06; reset 0 -/
  prio : Nat := 0
  deriving DecidableEq, Repr

/-- Status posting of a channel (R194). -/
structure Post where
  /-- CH_POST_BASE; 64 bits; Table 6-14, 06; reset 0 -/
  base : BitVec 64 := 0
  /-- CH_POST_CFG.EN; 1 bit; Table 6-14, 06; reset 0 -/
  en : Bool := false
  /-- CH_POST_CFG.SIZE; 4 bits; Table 6-14, 06; reset 4 -/
  size : Nat := 4
  /-- CH_POST_HEAD; 32 bits; Table 6-14, 06; reset 0 -/
  head : Nat := 0
  /-- CH_POST_HADDR; 64 bits; Table 6-14, 06; reset 0 -/
  haddr : BitVec 64 := 0
  /-- SEQ of the posts; 8 bits; Table 6-7, 06; reset 0 -/
  seq : Nat := 0
  deriving DecidableEq, Repr

/-- What a channel does once its entry is complete (R175, R197). -/
structure Cont where
  /-- address of the next entry; R175, 06 -/
  next : Nat
  /-- the chain ends; R175, 06 -/
  ends : Bool
  /-- REST; R171, 06 -/
  rest : Bool
  /-- status that the entry gives: OK or BUDGET_OVERRUN; R185, 06 -/
  st : Nat
  deriving DecidableEq, Repr

/-- A channel context (chapter 06). -/
structure Chan where
  /-- binding; CH_BIND; R168, 06; reset as its fields -/
  bind : Bind := {}
  /-- CH_CTRL.POST_VEC; 10 bits; Table 6-14, 06; reset 0 -/
  postVec : Nat := 0
  /-- CH_CTRL.OVR_CONT; 1 bit; Table 6-14, 06; reset 0 -/
  ovrCont : Bool := false
  /-- CH_CTRL as written, in force at the next entry boundary; R204, 06; reset none -/
  ctrlNew : Option (Nat × Bool) := none
  /-- CH_STATE.STATE; 3 bits; R197, 06; reset IDLE -/
  state : ChState := .idle
  /-- CH_STATE.WAIT; 3 bits; Table 6-14, 06; reset executing -/
  wait : ChWait := .executing
  /-- CH_STATE.RES_PEND; 1 bit; R199, 06; reset 0 -/
  resPend : Bool := false
  /-- CH_STATE.DEPTH; 4 bits; R191, 06; reset 0 -/
  depth : Nat := 0
  /-- CH_STATE.CNT_OVF; 1 bit; Table 6-14, 06; reset 0 -/
  ovf : Bool := false
  /-- CH_CHK.CAUSE; 8 bits; Table 6-9, 06; reset 0 -/
  cause : Nat := 0
  /-- CH_CHK.DETAIL; 8 bits; Table 6-14, 06; reset 0 -/
  detail : Nat := 0
  /-- CH_CCE; 64 bits; Table 6-14, 06; reset 0 -/
  cce : Nat := 0
  /-- posting; reset as its fields -/
  post : Post := {}
  /-- CH_CYC_LAST; 20 bits; R184, 06; reset 0 -/
  cycLast : Nat := 0
  /-- cycles charged in the frame in progress; R184, 06; reset 0 -/
  cyc : Nat := 0
  /-- CH_OVR_CNT; 32 bits saturating; R185, 06; reset 0 -/
  ovrCnt : Nat := 0
  /-- CH_DEFER_CNT; 32 bits saturating; R183, 06; reset 0 -/
  deferCnt : Nat := 0
  /-- CH_RECOV; 16 bits saturating; R202, 06; reset 0 -/
  recov : Nat := 0
  /-- CH_CX k; 32 bits each; R167, 06; reset 0 -/
  cx : Vector Word 16 := Vector.replicate 16 0
  /-- running command; R198, 06; reset none -/
  cur : Option Cmd := none
  /-- pending commands, oldest first, at most 16; R198, 06; reset empty -/
  pend : List Cmd := []
  /-- CLEAR_CHANNEL waiting for the halt; R200, 06; reset none -/
  clear : Option Cmd := none
  /-- a halt is requested (CLEAR_CHANNEL, reset); R200, 06; reset 0 -/
  halting : Bool := false
  /-- the halt that is requested is a host reset's, whose host-memory writes are discarded; 1 bit; R362, 11; reset 0 -/
  cut : Bool := false
  /-- address of the next entry to read; R190, 06; reset 0 -/
  next : Nat := 0
  /-- the entry read; R190, 06; reset none -/
  ent : Option Cce := none
  /-- device operation; R176, 06; reset none -/
  op : Option Op := none
  /-- DISPATCH points a WAITF still waits for; R187, 06; reset 0 -/
  waitN : Nat := 0
  /-- control and flow entries in a row; R189, 06; reset 0 -/
  ctl : Nat := 0
  /-- continuation while POSTING waits; R197, 06; reset none -/
  cont : Option Cont := none
  /-- reserved by the last grant pass; R447, 15; reset 0 -/
  granted : Bool := false
  /-- estimate: cycles and byte energy in pJ of the last frame in which it ran; R447, 15; reset none -/
  est : Option Nat := none
  /-- energy charged in the frame in progress, pJ; R448, 15; reset 0 -/
  used : Nat := 0
  /-- consecutive frames IDLE, at most 256; R456, 15; reset 0 -/
  idleN : Nat := 0
  /-- Scout lane; chapter 09; reset as its fields -/
  sc : Scout := {}
  deriving DecidableEq, Repr

/-! ### Needle cores -/

/-- A result not yet visible (R235): register, value, instructions still to execute. -/
structure Fly where
  /-- destination register; R235, 08 -/
  reg : BitVec 5
  /-- value; R235, 08 -/
  val : Word
  /-- instructions still to execute before it lands; R235, 08 -/
  left : Nat
  deriving DecidableEq, Repr

/-- A posted store (R216). -/
structure Store where
  /-- data address, or 2^32 + the offset in local memory that LMW.BASE gave as the store was posted; R216, 07 -/
  addr : Nat
  /-- bytes; R216, 07 -/
  bytes : List Byte
  /-- instructions still to begin before the core's own loads see a data-SRAM store; R239, 08 -/
  left : Nat
  deriving DecidableEq, Repr

/-- A data-SRAM store that has arrived, or a Scout run's that has been buffered, before the store-to-load distance (R239, R275). -/
structure Fresh where
  /-- data address; R239, 08 -/
  addr : Nat
  /-- the bytes as they were before the store; R239, 08 -/
  old : List Byte
  /-- the bytes stored; R239, 08 -/
  bytes : List Byte
  /-- instructions still to begin before the core's own loads see it; R239, 08 -/
  left : Nat
  deriving DecidableEq, Repr

/-- What holds a core (R215, R216, R232, R233, R245, R260). -/
inductive CoreHold where
  /-- a load outside data SRAM: instruction word, destination, address, size, signed, the value a port register gave as the load was
  issued (R42), and the post-modified base -/
  | load (w : Word) (gd : BitVec 5) (addr : Word) (size : Nat) (sgn : Bool) (val : Option Word) (base : Option (BitVec 5 × Word))
  /-- TAS (0), LR (1) or SC (2) outside data SRAM: instruction word, destination, address, value SC stores -/
  | atom (w : Word) (op : Nat) (gd : BitVec 5) (addr : Word) (v : Word)
  /-- a store that found the buffer full: instruction word, the store, registers written and successor once it is posted -/
  | full (w : Word) (st : Store) (regs : List (BitVec 5 × Word)) (nxt : Option Word)
  /-- a string element in an access outside data SRAM: instruction word, what its earlier reads gave, the value a port register gave as the
  access was issued -/
  | elem (w : Word) (got : List Word) (val : Option Word)
  /-- a string element's store that found the buffer full: instruction word, the store -/
  | elemFull (w : Word) (st : Store)
  | sync
  | done
  /-- a mezzanine transaction: destination, instruction word, on the bus -/
  | mezz (gd : BitVec 5) (w : Word) (cmd a b : Word) (granted : Bool)
  deriving DecidableEq, Repr

/-- The routine a core runs (R182). -/
structure Run where
  /-- channel; R182, 06 -/
  ch : ChIx
  /-- TIMED; R180, 06 -/
  timed : Bool
  /-- a Scout run; R264, 09 -/
  scout : Bool
  /-- cycles of the frame in progress; R209, 07 -/
  cyc : Nat
  /-- it has begun in this frame or staged in it; R44, 02 -/
  staged : Bool
  /-- data window address; R179, 06 -/
  win : Word
  deriving DecidableEq, Repr

/-- A repeat pair in progress (R243): RPT's address, the string instruction's word, an element has been done. -/
structure Rpt where
  /-- address of the RPT; R242, 08 -/
  pc : Word
  /-- the string instruction; R242, 08 -/
  word : Word
  /-- result of the last completed element; R245, 08 -/
  res : Option Word
  deriving DecidableEq, Repr

/-- A routine slot (Table 18-6). -/
structure Slot where
  /-- VALID; 1 bit; Table 18-6, 18; reset 0 -/
  valid : Bool := false
  /-- TIMED; 1 bit; Table 18-6, 18; reset 0 -/
  timed : Bool := false
  /-- ENTRY; 14 bits of address; Table 18-6, 18; reset 0 -/
  entry : Word := 0
  deriving DecidableEq, Repr

/-- The trap registers (Table 8-6). -/
structure Traps where
  /-- TVEC.ADDR; 14 bits; Table 8-6, 08; reset 0 -/
  tvec : Word := 0
  /-- TVEC.EN; 1 bit; Table 8-6, 08; reset 0 -/
  en : Bool := false
  /-- ESTAT.RPT; 1 bit; Table 8-6, 08; reset 0 -/
  rpt : Bool := false
  /-- ESTAT.PLACT; 1 bit; Table 8-6, 08; reset 0 -/
  plact : Bool := false
  /-- ESTAT.DS; 1 bit; Table 8-6, 08; reset 0 -/
  ds : Bool := false
  /-- ESTAT.IN_TRAP; 1 bit; Table 8-6, 08; reset 0 -/
  inTrap : Bool := false
  /-- ECAUSE.CODE; 8 bits; Table 8-6, 08; reset 0 -/
  code : Nat := 0
  /-- ECAUSE.CAUSE; 8 bits; Table 8-6, 08; reset 0 -/
  cause : Nat := 0
  /-- ETPC; 16 bits; Table 8-6, 08; reset 0 -/
  etpc : Word := 0
  /-- ERPC; 16 bits; Table 8-6, 08; reset 0 -/
  erpc : Word := 0
  /-- EBAD; 32 bits; Table 8-6, 08; reset 0 -/
  ebad : Word := 0
  /-- EINSTR; 32 bits; Table 8-6, 08; reset 0 -/
  einstr : Word := 0
  deriving DecidableEq, Repr

/-- The control registers a routine starts with at their reset values (R209, R263), beside the trap registers. -/
structure Ctrl where
  /-- LMW.BASE; 4 bits; Table 7-4, 07; reset 0 -/
  lmw : Nat := 0
  /-- SP_LIM; 32 bits; Table 7-4, 07; reset 0x00010000 -/
  spLim : Word := 0x00010000
  /-- RSV: reserved granule, with the LMW.BASE it was taken under; R226, 07; reset none -/
  rsv : Option (Nat × Nat) := none
  /-- RSV.GRANULE, the address bits [31:5] of the last LR; 27 bits; R226, 07; reset 0 -/
  granule : Nat := 0
  /-- NOW_HI captured; 32 bits; Table 7-3, 07; reset 0 -/
  nowHi : Word := 0
  /-- EDGE_HI captured; live until the first capture; 32 bits; R209, Table 7-3, 07; reset none -/
  edgeHi : Option Word := none
  /-- MWk_BASE; 32 bits each; Table 7-4, 07; reset 0 -/
  mwBase : Vector Word 4 := Vector.replicate 4 0
  /-- MWk_CFG; 32 bits each; Table 7-4, 07; reset 0 -/
  mwCfg : Vector Word 4 := Vector.replicate 4 0
  /-- LCTRL.LACT; 1 bit; Table 8-6, 08; reset 0 -/
  lact : Bool := false
  /-- LSTART; 16 bits; Table 8-6, 08; reset 0 -/
  lstart : Word := 0
  /-- LEND; 16 bits; Table 8-6, 08; reset 0 -/
  lend : Word := 0
  /-- COP_STAT.UND; 1 bit; Table 8-6, 08; reset 0 -/
  und : Bool := false
  /-- COP_STAT.OVF; 1 bit; Table 8-6, 08; reset 0 -/
  ovf : Bool := false
  /-- COP_STAT.DZ; 1 bit; Table 8-6, 08; reset 0 -/
  dz : Bool := false
  /-- MZ_CTRL.TIMEOUT; 16 bits; Table 8-6, 08; reset 1000 -/
  mzTimeout : Nat := 1000
  /-- MZ_STAT.LAST_ERR; 16 bits; Table 8-6, 08; reset 0 -/
  mzErr : Nat := 0
  deriving DecidableEq, Repr

/-- A Needle core (chapters 07, 08). -/
structure Core where
  /-- g0 to g31; 32 bits each; R207, 07; reset DESIGN CHOICE 0, set at each routine start (log 7) -/
  g : Vector Word 32 := Vector.replicate 32 0
  /-- results in flight, in program order; R235, 08; reset empty -/
  fly : List Fly := []
  /-- address of the next instruction; 16 bits; R212, 07; reset DESIGN CHOICE 0, set at each routine start (log 7) -/
  pc : Word := 0
  /-- delay slot pending: branch address, where execution continues, and whether the branch is taken; R228, 07; reset none -/
  slot : Option (Word × Word × Bool) := none
  /-- repeat pair in progress; R243, 08; reset none -/
  rpt : Option Rpt := none
  /-- control registers; reset as its fields -/
  cr : Ctrl := {}
  /-- trap registers; reset as its fields -/
  tr : Traps := {}
  /-- store buffer, oldest first, at most 8; R216, 07; reset empty -/
  sb : List Store := []
  /-- data-SRAM stores arrived or buffered and not yet seen by the core's own loads, oldest first; R239, 08; reset empty -/
  fresh : List Fresh := []
  /-- what holds the core; R215, 07; reset none -/
  hold : Option CoreHold := none
  /-- time up to which that hold is charged, and the cycles of it charged; LSB 0.25 ns and count; R45, R47, 02; reset 0 -/
  held : Nat × Nat := (0, 0)
  /-- routine running; R182, 06; reset none -/
  run : Option Run := none
  /-- cycles of the frame in progress; R47, 02; reset 0 -/
  cyc : Nat := 0
  /-- instruction SRAM; 64 KiB; R34, 01; reset DESIGN CHOICE 0 (log 7) -/
  isram : Mem := []
  /-- data SRAM; 128 KiB; R34, 01; reset 0 (Table 17-13) -/
  dsram : Mem := []
  /-- routine slots; R178, 06; reset empty -/
  slots : Vector Slot 32 := Vector.replicate 32 {}
  /-- the second data window is the next to use; R177, 06; reset 0 -/
  winB : Bool := false
  /-- the core is fenced; 1 bit; R418, 14; reset 0 -/
  fenced : Bool := false
  /-- TS, channel and trap registers of the last unhandled trap; R428, 14; reset zero -/
  diag : Nat × Nat × Traps := (0, 0, {})
  deriving DecidableEq, Repr

/-! ### Move channels -/

/-- MC_STAT.STATE (Table 10-11). -/
inductive McState where
  | idle | ready | running | waiting | check
  deriving DecidableEq, Repr

/-- What a move channel waits for (R312 to R314). -/
inductive McWait where
  | none
  /-- points still to pass, INPUT_READY or DISPATCH -/
  | tick (input : Bool) (n : Nat)
  /-- word address, mask, CLR -/
  | signal (addr : Nat) (mask : Word) (clr : Bool)
  | drain
  /-- held at a descriptor boundary by curtailment or a domain -/
  | bulk
  deriving DecidableEq, Repr

/-- Who started the program of a move channel (R297). -/
inductive McOwner where
  | none
  | chan (n : ChIx)
  | cmd (c : Cmd)
  deriving DecidableEq, Repr

/-- A move channel (chapter 10). -/
structure Mc where
  /-- MC_CTRL.STOP; 1 bit; R317, 10; reset 0 -/
  stop : Bool := false
  /-- the stop request came from a write of MC_CTRL.STOP; 1 bit; R298, 10; reset 0 -/
  stopHost : Bool := false
  /-- why a stop was requested: DOMAIN_DOWN detail if a domain goes down; R317, 10; reset none -/
  stopDom : Option Nat := none
  /-- MC_CTRL.LANE, BULK; 1 bit; R294, 10; reset 0 -/
  bulk : Bool := false
  /-- MC_STAT.CAUSE; 8 bits; Table 10-5, 10; reset 0 -/
  cause : Nat := 0
  /-- MC_STAT.CNT_OVF; 1 bit; Table 10-11, 10; reset 0 -/
  ovf : Bool := false
  /-- MC_STAT.LACT; 1 bit; R311, 10; reset 0 -/
  lact : Bool := false
  /-- MC_STAT.STATE; 3 bits; Table 10-11, 10; reset IDLE -/
  state : McState := .idle
  /-- MC_PC; 64 bits; Table 10-11, 10; reset 0 -/
  pc : Nat := 0
  /-- MC_SRC_CUR; 64 bits; Table 10-11, 10; reset 0 -/
  src : BitVec 64 := 0
  /-- MC_DST_CUR; 64 bits; Table 10-11, 10; reset 0 -/
  dst : BitVec 64 := 0
  /-- MC_LC; 24 bits; R311, 10; reset 0 -/
  lc : Nat := 0
  /-- address of the LOOP of the active loop; R311, 10; reset 0 -/
  loopAt : Nat := 0
  /-- MC_LAST_LEN; 25 bits; R303, 10; reset 0 -/
  lastLen : Nat := 0
  /-- MC_SIG_CNT; 32 bits saturating; R315, 10; reset 0 -/
  sig : Nat := 0
  /-- MC_OWNER: bound channel; R168, 06; reset none -/
  bound : Option ChIx := none
  /-- who started the program; R297, 10; reset none -/
  owner : McOwner := .none
  /-- what it waits for; R312, 10; reset none -/
  wait : McWait := .none
  /-- descriptor read, not yet executed; R302, 10; reset none -/
  desc : Option (List Byte) := none
  /-- LOOP and SIGNAL descriptors in a row; R311, 10; reset 0 -/
  ctl : Nat := 0
  /-- time the program's last write left the engine; 64 bits; R315, 10; reset none yet -/
  wrTs : Option Nat := none
  /-- a write of the program may still await its target's acknowledgement; 1 bit; R314, 10; reset 0 -/
  unacked : Bool := false
  /-- a host reset stops the program, whose host-memory writes are discarded; 1 bit; R362, 11; reset 0 -/
  cut : Bool := false
  /-- the move channel is fenced; 1 bit; R418, 14; reset 0 -/
  fenced : Bool := false
  deriving DecidableEq, Repr

/-! ### Reflex -/

/-- A Reflex rule (Table 12-2). -/
structure Rule where
  /-- RULE_CTRL.EN; 1 bit; Table 12-2, 12; reset 0 -/
  en : Bool := false
  /-- RULE_CTRL.LOCK; 1 bit; R377, 12; reset 0 -/
  lock : Bool := false
  /-- RULE_CTRL.HOLDING; 1 bit; R373, 12; reset 0 -/
  holding : Bool := false
  /-- RULE_CTRL.HOLD; 2 bits; Table 12-2, 12; reset LATCH 0 -/
  hold : Nat := 0
  /-- RULE_CTRL.EVQ; 1 bit; Table 12-2, 12; reset 0 -/
  evq : Bool := false
  /-- RULE_TRIG; 32 bits; Table 12-2, 12; reset 0 -/
  trig : Word := 0
  /-- RULE_THRESH; 32 bits; Table 12-2, 12; reset 0 -/
  thresh : Word := 0
  /-- RULE_QUAL; 32 bits; Table 12-2, 12; reset 0 -/
  qual : Word := 0
  /-- RULE_ACT; 32 bits; Table 12-2, 12; reset 0 -/
  act : Word := 0
  /-- RULE_VALUE; 32 bits; Table 12-2, 12; reset 0 -/
  value : Word := 0
  /-- RULE_FIRE_CNT; 32 bits saturating; Table 12-2, 12; reset 0 -/
  fires : Nat := 0
  /-- RULE_THRESH_HI; 16 bits; Table 12-2, 12; reset 0 -/
  threshHi : Word := 0
  /-- comparator of an ANALOG rule: above LIMIT; 1 bit; R371, 12; reset DESIGN CHOICE 0 (log 7) -/
  above : Bool := false
  /-- it has fired and its condition has not been false since; 1 bit; R369, 12; reset 0 -/
  spent : Bool := false
  deriving DecidableEq, Repr

/-- A Reflex record (Table 12-7). -/
structure RxRec where
  /-- TS; 64 bits; Table 12-7, 12 -/
  ts : Nat
  /-- RULE; 16 bits; Table 12-7, 12 -/
  rule : Nat
  /-- CODE; 8 bits; Table 12-7, 12 -/
  code : Nat
  /-- TGT; 8 bits; Table 12-7, 12 -/
  tgt : Nat
  /-- SRC; 8 bits; Table 12-7, 12 -/
  src : Nat
  /-- SEQ; 8 bits; Table 12-7, 12 -/
  seq : Nat
  /-- DE; 4 bits; Table 12-7, 12 -/
  de : BitVec 4
  deriving DecidableEq, Repr

/-- The REFLEX block (Table 12-12). -/
structure Reflex where
  /-- SLOW; 1 bit; Table 12-12, 12; reset 0 -/
  slow : Bool := false
  /-- LOCK_REJ; 1 bit; Table 12-12, 12; reset 0 -/
  lockRej : Bool := false
  /-- WR_BUSY; 1 bit; Table 12-12, 12; reset 0 -/
  wrBusy : Bool := false
  /-- OVF; 1 bit; Table 12-12, 12; reset 0 -/
  ovf : Bool := false
  /-- ARMED; 1 bit; R377, 12; reset 0 -/
  armed : Bool := false
  /-- CFG_REJ; 1 bit; Table 12-12, 12; reset 0 -/
  cfgRej : Bool := false
  /-- RST_REJ; 1 bit; Table 12-12, 12; reset 0 -/
  rstRej : Bool := false
  /-- REFLEX_ESTOP.DISC; 1 bit; R381, 12; reset 0 -/
  disc : Bool := false
  /-- both channels have been open together since DISC; 1 bit; R381, 12; reset 0 -/
  discOpen : Bool := false
  /-- REFLEX_ESTOP.ACTIVE; 1 bit; R380, 12; reset 1 -/
  estop : Bool := true
  /-- REFLEX_ESTOP.RAW, A then B; 2 bits; Table 12-12, 12; reset 0 -/
  raw : Bool × Bool := (false, false)
  /-- REFLEX_ESTOP.CLOSED, A then B; 2 bits; Table 12-12, 12; reset 0 -/
  closed : Bool × Bool := (false, false)
  /-- REFLEX_ESTOP_CFG.LOCK; 1 bit; Table 12-12, 12; reset 0 -/
  cfgLock : Bool := false
  /-- REFLEX_ESTOP_CFG.DE_MASK; 4 bits; Table 12-12, 12; reset 0xF -/
  deMask : BitVec 4 := 0xF
  /-- REFLEX_ESTOP_CFG.DISC; 12 bits; Table 12-12, 12; reset 100 -/
  discMs : Nat := 100
  /-- REFLEX_ESTOP_CFG.FILT; 10 bits; Table 12-12, 12; reset 1000 -/
  filt : Nat := 1000
  /-- REFLEX_DE.CLOSE_REJ; 1 bit; Table 12-12, 12; reset 0 -/
  closeRej : Bool := false
  /-- REFLEX_DE.AUX; 4 bits; Table 12-12, 12; reset 0 -/
  aux : BitVec 4 := 0
  /-- REFLEX_DE.COIL; 4 bits; Table 12-12, 12; reset 0 -/
  coil : BitVec 4 := 0
  /-- disagreement latched per relay; 4 bits; R383, 12; reset 0 -/
  deDis : BitVec 4 := 0
  /-- time of the last firing and the relays that firings opened then; 4 bits; Table 12-9, 12; reset none -/
  deFired : Nat × BitVec 4 := (0, 0)
  /-- time of the last write of REFLEX_DE and the relays it closed; 4 bits; Table 12-9, 12; reset none -/
  deClosed : Nat × BitVec 4 := (0, 0)
  /-- Reflex event queue, oldest first, at most 256; R384, 12; reset empty -/
  evq : List RxRec := []
  /-- REFLEX_EVQ_LOST; 32 bits saturating; Table 12-12, 12; reset 0 -/
  lost : Nat := 0
  /-- records produced; 8 bits modulo 256; Table 12-7, 12; reset 0 -/
  seq : Nat := 0
  /-- captures of REFLEX_EVQ_POP high half and TS per agent; R510, 18; reset empty (all 0) -/
  caps : List (Agent × Word × Nat) := []
  /-- REFLEX_PATH; 8 bits; Table 12-12, 12; reset 0 -/
  path : Nat := 0
  deriving DecidableEq, Repr

/-! ### Propolis -/

/-- A report on its way to Propolis (R411, R412). -/
structure Report where
  /-- unit; R411, 14 -/
  u : UnitId
  /-- cause code; 8 bits; Table 14-2, 14 -/
  cause : Nat
  /-- DETAIL; 16 bits; Table 14-4, 14 -/
  detail : Nat
  /-- DATA; 32 bits; Table 14-4, 14 -/
  data : Word
  /-- time of the cause; 64 bits; R426, 14 -/
  ts : Nat
  /-- injected, with the class of PROP_INJ_CTRL if CLS_EN; R433, 14 -/
  inj : Option (Option Nat)
  deriving DecidableEq, Repr

/-- A record of the fault log (Table 14-4). -/
structure FRec where
  /-- the report; Table 14-4, 14 -/
  r : Report
  /-- FSEQ; 32 bits; Table 14-4, 14 -/
  fseq : Nat
  /-- class from the map; 3 bits; Table 14-4, 14 -/
  map : Nat
  /-- class applied; 3 bits; Table 14-4, 14 -/
  cls : Nat
  /-- ESC; 1 bit; Table 14-4, 14 -/
  esc : Bool
  /-- COINCIDENT; 1 bit; R434, 14 -/
  coin : Bool
  /-- acknowledged; 1 bit; R430, 14 -/
  acked : Bool
  /-- RECOV; 16 bits; Table 14-4, 14 -/
  recov : Nat
  deriving DecidableEq, Repr

/-- What Propolis keeps for a unit that has reported (R422, R423, R425). -/
structure PUnit where
  /-- the unit; R411, 14 -/
  u : UnitId
  /-- slots 0 to 3: FSEQ of the record that holds each; R422, 14 -/
  slots : List (Nat × Nat)
  /-- highest class of the faults not ended; 0 for none; R423, 14 -/
  cls : Nat
  /-- recovery counter; 16 bits saturating; R425, 14 -/
  recov : Nat
  /-- causes of level faults whose condition may persist; R423, 14 -/
  level : List Nat
  deriving DecidableEq, Repr

/-- An object that a fence isolates (R424). -/
inductive Obj where
  | comb (c : CombIx)
  | chan (n : ChIx)
  | core (k : CoreIx)
  | mc (m : McIx)
  deriving DecidableEq, Repr

/-- The PROP block (Table 14-9). -/
structure Prop_ where
  /-- reports waiting to be taken, in order of arrival; R421, 14; reset empty -/
  reports : List Report := []
  /-- PROP_STAT.OVF; 1 bit; Table 14-9, 14; reset 0 -/
  ovf : Bool := false
  /-- PROP_STAT.GRAVE; 1 bit; R420, 14; reset 0 -/
  grave : Bool := false
  /-- PROP_STAT.DEGRADED; 1 bit; R419, 14; reset 0 -/
  degraded : Bool := false
  /-- PROP_STAT.CFG_REJ; 1 bit; Table 14-9, 14; reset 0 -/
  cfgRej : Bool := false
  /-- PROP_HEAD; 32 bits; Table 14-9, 14; reset 0 -/
  head : Nat := 0
  /-- fault log, oldest first, at most 1,024; PROP_UNACK counts in it; R427, 14; reset empty -/
  log : List FRec := []
  /-- PROP_LOST; 32 bits saturating; R427, 14; reset 0 -/
  lost : Nat := 0
  /-- FSEQ of the class-4 records not acknowledged; R423, 14; reset empty -/
  open4 : List (Nat × UnitId) := []
  /-- units that have reported; R411, 14; reset empty -/
  units : List PUnit := []
  /-- fences: object and the unit whose fault set it (none: degraded or grave operation); R424, 14; reset empty -/
  fences : List (Obj × Option UnitId) := []
  /-- PROP_QUIET 1 to 4; 32 bits each, ms; Table 14-9, 14; reset 100, 1000, 10000, 60000 -/
  quiet : Vector Nat 4 := ⟨#[100, 1000, 10000, 60000], rfl⟩
  /-- PROP_CFG.IRQ_MIN; 3 bits; Table 14-9, 14; reset 1 -/
  irqMin : Nat := 1
  /-- PROP_CFG.DEG_PRIO; 3 bits; Table 14-9, 14; reset 4 -/
  degPrio : Nat := 4
  /-- PROP_USEL; 24 bits; Table 14-9, 14; reset 0x00010000 -/
  usel : Word := 0x00010000
  /-- PROP_INJ; 32 bits; Table 14-9, 14; reset 0 -/
  inj : Word := 0
  /-- PROP_INJ_DETAIL; 16 bits; Table 14-9, 14; reset 0 -/
  injDetail : Word := 0
  /-- PROP_INJ_CTRL.TOKEN_ERR; 1 bit; Table 14-9, 14; reset 0 -/
  tokenErr : Bool := false
  /-- PROP_INJ_CTRL.STRAP; 1 bit, live; Table 14-9, 14; reset DESIGN CHOICE 0 (log 7) -/
  strap : Bool := false
  /-- PROP_INJ_CTRL.UNLOCKED; 1 bit; Table 14-9, 14; reset 0 -/
  unlocked : Bool := false
  /-- PROP_INJ_CTRL.CLS_EN; 1 bit; Table 14-9, 14; reset 0 -/
  clsEn : Bool := false
  /-- PROP_INJ_CTRL.CLASS; 3 bits; Table 14-9, 14; reset 0 -/
  cls : Nat := 0
  /-- PROP_INJ_TOK; 32 bits; Table 14-9, 14; reset 0 -/
  tok : Word := 0
  /-- PROP_CMAP entries changed from the default map: cause, (class, ESC); 10 bits each; R413, 14; reset the default map (none changed) -/
  cmap : List (Nat × Nat × Bool) := []
  deriving DecidableEq, Repr

/-! ### Host interface -/

/-- Moderation of a vector (R347, R348). -/
structure Vec where
  /-- IRQ_MOD.THR; 8 bits; Table 11-10, 11; reset 1 -/
  thr : Nat := 1
  /-- IRQ_MOD.TIME; 16 bits; Table 11-10, 11; reset 0 -/
  time : Nat := 0
  /-- a new IRQ_MOD for the next send; R357, 11; reset none -/
  new : Option (Nat × Nat) := none
  /-- requests counted since the last send; R347, 11; reset 0 -/
  count : Nat := 0
  /-- mask bit of the MSI-X table; 1 bit; R348, 11; reset 1 (PCI Express), PRESUMED (log 7) -/
  mask : Bool := true
  /-- PBA bit; 1 bit; R348, 11; reset 0 -/
  pba : Bool := false
  /-- a message waits for the return to D0; 1 bit; R350, 11; reset 0 -/
  due : Bool := false
  /-- message address (bits 63 to 0) and data of the MSI-X table entry; 96 bits; R326, 11; reset 0, PRESUMED (log 7) -/
  msg : BitVec 96 := 0
  deriving DecidableEq, Repr

/-- A write that waits at the host interface in D3hot (R350): bytes at a bus address, or the next completion record of a queue with the vector
it will request. -/
inductive HeldWrite where
  | data (addr : Nat) (bytes : List Byte)
  | record (q : QpIx) (v : Option VecIx)
  deriving DecidableEq, Repr

/-- A LOAD_ROUTINE in progress: the command, the code read, the cores still to do (R356). -/
structure Loading where
  /-- the command; R356, 11 -/
  cmd : Cmd
  /-- code bytes; R356, 11 -/
  code : List Byte
  /-- cores still to load, ascending; R356, 11 -/
  cores : List CoreIx
  deriving DecidableEq, Repr

/-- The HOSTQ block and the PCI Express side (chapter 11). -/
structure Hostq where
  /-- HQ_CTRL.ADM_EN; 1 bit; Table 11-13, 11; reset 0 -/
  admEn : Bool := false
  /-- ACC_REJ; 1 bit; Table 11-13, 11; reset 0 -/
  accRej : Bool := false
  /-- DB_REJ; 1 bit; Table 11-13, 11; reset 0 -/
  dbRej : Bool := false
  /-- WR_BUSY; 1 bit; Table 11-13, 11; reset 0 -/
  wrBusy : Bool := false
  /-- ADM_RDY; 1 bit; R329, 11; reset 0 -/
  admRdy : Bool := false
  /-- CFG_REJ; 1 bit; Table 11-13, 11; reset 0 -/
  cfgRej : Bool := false
  /-- HQ_ADM_SQ; 64 bits; Table 11-13, 11; reset 0 -/
  admSq : BitVec 64 := 0
  /-- HQ_ADM_CQ; 64 bits; Table 11-13, 11; reset 0 -/
  admCq : BitVec 64 := 0
  /-- HQ_ADM_HEAD; 64 bits; Table 11-13, 11; reset 0 -/
  admHead : BitVec 64 := 0
  /-- HQ_ADM_CFG.DEPTH_LOG2; 4 bits; Table 11-13, 11; reset 4 -/
  admCfg : Nat := 4
  /-- HQ_BAR2_WIN.BASE; 4 bits; Table 11-13, 11; reset 0 -/
  bar2 : Nat := 0
  /-- moderation and MSI-X state per vector; R347, R348, 11; reset as its fields -/
  vecs : Vector Vec 513 := Vector.replicate 513 {}
  /-- MSI-X function mask; 1 bit; R348, 11; reset 0, PRESUMED (log 7) -/
  fmask : Bool := false
  /-- QSTALL_LIMIT; ms; Table 11-10, 11; reset 10 -/
  qstall : Nat := 10
  /-- QFAULT_FACTOR; Table 11-10, 11; reset 100 -/
  qfault : Nat := 100
  /-- the function is in D3hot; R350, 11; reset 0 -/
  d3 : Bool := false
  /-- PME_En; 1 bit; R350, 11; reset 0, PRESUMED (log 7) -/
  pmeEn : Bool := false
  /-- PME_Status; 1 bit; R350, 11; reset 0, PRESUMED (log 7) -/
  pme : Bool := false
  /-- writes that wait at the host interface in D3hot, oldest first; R350, 11; reset empty -/
  held : List HeldWrite := []
  /-- Max_Payload_Size of the Device Control register; 3 bits, 128 B doubled so often; Table 11-1, 11; reset 0, PRESUMED (log 7) -/
  mps : Nat := 0
  /-- Max_Read_Request_Size of the Device Control register; 3 bits, 128 B doubled so often; Table 11-1, 11; reset 2, PRESUMED (log 7) -/
  mrrs : Nat := 2
  /-- base addresses of BAR0 to BAR5; 32 bits each; R326, 11; reset 0, PRESUMED (log 7) -/
  bars : Vector Word 6 := Vector.replicate 6 0
  /-- the link is up; R363, 11; reset DESIGN CHOICE 1 (log 7) -/
  link : Bool := true
  /-- the host interface issues requests; R362, R440, 11; reset 1 -/
  issues : Bool := true
  /-- the background image command; R351, 11; reset none -/
  image : Option (Cmd × Nat × Nat × Nat) := none
  /-- the admin command running in the foreground, waiting for its end; R351, 11; reset none -/
  running : Option Cmd := none
  /-- LOAD_ROUTINE in progress; R356, 11; reset none -/
  loading : Option Loading := none
  deriving DecidableEq, Repr

/-! ### Power -/

/-- State of a power domain (R450). -/
inductive Dom where
  | on | draining | off | rising
  deriving DecidableEq, Repr

/-- The FAN block (Table 15-8) and the grant pass (R446 to R449). -/
structure Fan where
  /-- FAN_CFG.G_TH; 8 bits, 0.1 W/C; Table 15-8, 15; reset 20 -/
  gTh : Nat := 20
  /-- FAN_CFG.G_TH_CONDUCT; 8 bits; Table 15-8, 15; reset 15 -/
  gThC : Nat := 15
  /-- FAN_CFG.DRAIN_LIM; 8 bits, us; Table 15-8, 15; reset 200 -/
  drainLim : Nat := 200
  /-- FAN_CFG.AUTO_GATE; 1 bit; Table 15-8, 15; reset 0 -/
  autoGate : Bool := false
  /-- FAN_CFG.FLOOR_PRIO; 3 bits; Table 15-8, 15; reset 6 -/
  floor : Nat := 6
  /-- FAN_TLIM.COMB_HOT; 8 bits; Table 15-8, 15; reset 115 -/
  combHot : Nat := 115
  /-- FAN_TLIM.T_SOFT as the image sets it; 8 bits; Table 15-8, 15; reset 95 -/
  tSoft : Nat := 95
  /-- Gauge holds T_SOFT 5 C lower; 1 bit; R464, 16; reset 0 -/
  tLow : Bool := false
  /-- OVERLOAD; 1 bit; R444, 15; reset 0 -/
  overload : Bool := false
  /-- OVERDRAW; 1 bit; R449, 15; reset 0 -/
  overdraw : Bool := false
  /-- FAN_FAIL; 1 bit; R457, 15; reset 0 -/
  fanFail : Bool := false
  /-- THERM_SOFT; 1 bit; R443, 15; reset 0 -/
  thermSoft : Bool := false
  /-- DOM_REJ; 1 bit; R451, 15; reset 0 -/
  domRej : Bool := false
  /-- CFG_REJ; 1 bit; Table 15-8, 15; reset 0 -/
  cfgRej : Bool := false
  /-- LEVEL; 2 bits; R449, 15; reset 0 -/
  level : Nat := 0
  /-- FAN_P_CAP; 16 bits, 0.1 W; Table 15-8, 15; reset 280 -/
  pCap : Int := 280
  /-- FAN_E_GRANT; 32 bits signed, nJ; Table 15-8, 15; reset 0 -/
  eGrant : Int := 0
  /-- FAN_E_USED; 32 bits, nJ; Table 15-8, 15; reset 0 -/
  eUsed : Nat := 0
  /-- what is left of the last pass, pJ; R447, 15; reset 0 -/
  left : Int := 0
  /-- the last pass stopped; 1 bit; R448, 15; reset 0 -/
  stopped : Bool := false
  /-- energy reserved in the frame, pJ; R448, 15; reset 0 -/
  reserved : Nat := 0
  /-- energy charged to reserved work in the frame, pJ; R448, 15; reset 0 -/
  charged : Nat := 0
  /-- carry, pJ; R448, 15; reset 0 -/
  carry : Nat := 0
  /-- consecutive passes with left negative; R449, 15; reset 0 -/
  negN : Nat := 0
  /-- consecutive passes with Scout withheld, bulk_on clear, LEVEL 0 and bulk_on set; R456, 15; reset 0 -/
  passN : Nat × Nat × Nat × Nat := (0, 0, 0, 0)
  /-- bulk_on; 1 bit; R447, 15; reset DESIGN CHOICE 1 (log 7) -/
  bulkOn : Bool := true
  /-- energy of the bytes the BULK lane moved in the frame, pJ; R447, 15; reset 0 -/
  bulkUsed : Nat := 0
  /-- that energy in the frame just ended, pJ; R447, 15; reset 0 -/
  bulkLast : Nat := 0
  /-- FAN_CURVE.FULL and ON; 8 bits each; Table 15-8, 15; reset 60, 40 -/
  curve : Nat × Nat := (60, 40)
  /-- FAN_FAN.DUTY; 8 bits; R457, 15; reset 0 -/
  duty : Nat := 0
  /-- FAN_FAN.RPM; 16 bits; Table 15-8, 15; reset 0 -/
  rpm : Nat := 0
  /-- FAN_DOM_REQ; 32 bits; Table 15-8, 15; reset 0 -/
  req : Word := 0
  /-- state of each domain: FAN_DOM_STAT and FAN_DOM_DRAIN; R450, 15; reset on -/
  dom : Vector Dom 32 := Vector.replicate 32 .on
  /-- domains gated automatically; R456, 15; reset none -/
  auto : Word := 0
  /-- FAN_TEMP k; 16 bits signed, 0.125 C; Table 15-8, 15; reset 0 -/
  temp : Vector Int 24 := Vector.replicate 24 0
  /-- COMB_HOT already reported per Comb; R458, 15; reset 0 -/
  hot : BitVec 16 := 0
  /-- sensor 5 above 110 C already reported; R442, 15; reset 0 -/
  hot5 : Bool := false
  deriving DecidableEq, Repr

/-- Where Bind-off stands (R440). -/
inductive BindOff where
  | none
  /-- begun at B+0 -/
  | begun
  /-- requests ended, B+10 ms -/
  | quiet
  /-- Comb supplies off, B+12 ms -/
  | combsOff
  /-- outputs off, B+13 ms, or supplies lost -/
  | off
  deriving DecidableEq, Repr

/-- The PSU block (Table 15-9). -/
structure Psu where
  /-- LAST_OFF; 3 bits; Table 15-9, 15; reset retained, DESIGN CHOICE 0 before any power-off (log 7) -/
  lastOff : Nat := 0
  /-- HOLDUP_LOW; 1 bit; Table 15-9, 15; reset 0 -/
  holdupLow : Bool := false
  /-- PFW; 1 bit; Table 15-9, 15; reset 0 -/
  pfw : Bool := false
  /-- MAINS_OK; 1 bit, live; Table 15-9, 15; reset DESIGN CHOICE 1 (log 7) -/
  mainsOk : Bool := true
  /-- CFG_REJ; 1 bit; Table 15-9, 15; reset 0 -/
  cfgRej : Bool := false
  /-- PSU_VIN; 16 bits, live; Table 15-9, 15; reset DESIGN CHOICE 0 (log 7) -/
  vin : BitVec 16 := 0
  /-- PSU_VBUS; 16 bits, live; Table 15-9, 15; reset DESIGN CHOICE 0 (log 7) -/
  vbus : BitVec 16 := 0
  /-- PSU_POUT; 16 bits, live; Table 15-9, 15; reset DESIGN CHOICE 0 (log 7) -/
  pout : BitVec 16 := 0
  /-- PSU_POUT has varied by less than ±5 % over the last 100 ms; R461, 16; reset DESIGN CHOICE 0 (log 7) -/
  steady : Bool := false
  /-- PSU_PFW; 16 bits, 0.1 V; Table 15-9, 15; reset 3300 -/
  vPfw : Nat := 3300
  /-- PSU_PFW_MARGIN; 8 bits, V; Table 15-9, 15; reset 0 -/
  margin : Nat := 0
  /-- PSU_CAP; 16 bits, 0.1 uF; Table 15-9, 15; reset 2000 -/
  cap : Nat := 2000
  /-- PSU_ESR; 16 bits, mOhm; Table 15-9, 15; reset 500 -/
  esr : Nat := 500
  /-- p_hold; W; R444, 15; reset 260 -/
  pHold : Nat := 260
  /-- Bind-off; R440, 15; reset none -/
  bind : BindOff := .none
  /-- the power-factor stage runs; R461, R439, 15; reset 1 -/
  pfc : Bool := true
  /-- 12 V relay rail present; R165, 05; reset DESIGN CHOICE 1 (log 7) -/
  rail : Bool := true
  deriving DecidableEq, Repr

/-! ### Gauge -/

/-- A ledger entry (Table 16-3), without MAGIC, COPY and CRC. -/
structure LEntry where
  /-- SEQ; 32 bits; Table 16-3, 16 -/
  seq : Nat
  /-- KIND; 8 bits; Table 16-3, 16 -/
  kind : Nat
  /-- PON_MIN; 32 bits; Table 16-3, 16 -/
  pon : Nat
  /-- BOOTS; 32 bits; Table 16-3, 16 -/
  boots : Nat
  /-- EQ_HOURS; 32 bits; Table 16-3, 16 -/
  eqh : Nat
  /-- CAP and ESR; 16 bits each; Table 16-3, 16 -/
  capEsr : Nat × Nat
  /-- ISO; 8 bits each; Table 16-3, 16 -/
  iso : Vector Nat 16
  /-- ZEN; 16 bits each; Table 16-3, 16 -/
  zen : Vector Int 16
  /-- NCL: VOLT, DERATE, SLACK; Table 16-3, 16 -/
  ncl : Vector (Nat × Nat × Nat) 4
  /-- TCXO offset and MEASURED; Table 16-3, 16 -/
  tcxo : Int × Bool
  /-- FLASH; 32 bits each; Table 16-3, 16 -/
  flash : Nat × Nat
  /-- FAN hours and ratio; Table 16-3, 16 -/
  fan : Nat × Nat
  /-- RON ratio; 8 bits each; Table 16-3, 16 -/
  ron : List Nat
  /-- LIFE weeks and item; Table 16-3, 16 -/
  life : Nat × Nat
  /-- TS; 64 bits; Table 16-3, 16 -/
  ts : Nat
  deriving DecidableEq, Repr

/-- Where a capacitor measurement stands (R461). -/
inductive CapRun where
  | idle
  /-- discharging from this bus voltage in 0.1 V; ESR found so far -/
  | running (vStart : Nat) (esr : Option Nat)
  deriving DecidableEq, Repr

/-- The GAUGE block (Table 16-7). -/
structure Gauge where
  /-- GAUGE_CFG.CAP_INT; 8 bits; Table 16-7, 16; reset 24 -/
  capInt : Nat := 24
  /-- GAUGE_CFG.CAL_BASE; 12 bits; Table 16-7, 16; reset 168 -/
  calBase : Nat := 168
  /-- GAUGE_CFG.CAP_EN; 1 bit; Table 16-7, 16; reset 1 -/
  capEn : Bool := true
  /-- COPY_VALID; 2 bits; Table 16-7, 16; reset 0 -/
  copyValid : Nat := 0
  /-- capacitor measurement: CAP_BUSY; R461, 16; reset idle -/
  capRun : CapRun := .idle
  /-- PSU_POUT at the start of the discharge, 0.1 W; R461, 16; reset 0 -/
  capLoad : Nat := 0
  /-- consecutive capacitor measurements that failed; R461, 16; reset 0 -/
  capFails : Nat := 0
  /-- MEAS_FAIL; 1 bit; Table 16-7, 16; reset 0 -/
  measFail : Bool := false
  /-- CFG_REJ; 1 bit; Table 16-7, 16; reset 0 -/
  cfgRej : Bool := false
  /-- copy from which the newest state was recovered; 1 bit; R472, 16; reset 0 -/
  recovered : Bool := false
  /-- GAUGE_LSEQ; 32 bits; Table 16-7, 16; reset 0 -/
  lseq : Nat := 0
  /-- GAUGE_PON; 32 bits; Table 16-7, 16; reset 0 -/
  pon : Nat := 0
  /-- power-ups since manufacture; 32 bits; Table 16-3, 16; reset 0 -/
  boots : Nat := 0
  /-- GAUGE_EQHOURS in 1/3,932,160 h; Table 16-7, 16; reset 0 -/
  eqh : Nat := 0
  /-- GAUGE_LIFE: MODULE and ITEM; Table 16-7, 16; reset 0xFFFF, 0 -/
  life : Nat × Nat := (0xFFFF, 0)
  /-- LIFE_LOW is raised; 1 bit; R473, 16; reset 0 -/
  lifeLow : Bool := false
  /-- GAUGE_LIFE_WARN; 16 bits; Table 16-7, 16; reset 52 -/
  lifeWarn : Nat := 52
  /-- GAUGE_TCXO: PPB and MEASURED; Table 16-7, 16; reset 0, 0 -/
  tcxo : Int × Bool := (0, false)
  /-- GAUGE_FLASH d; 20 bits each; Table 16-7, 16; reset 0 -/
  flash : Nat × Nat := (0, 0)
  /-- GAUGE_FAN.RATIO; 8 bits; Table 16-7, 16; reset 0 -/
  fanRatio : Nat := 0
  /-- GAUGE_FAN.HOURS in minutes; Table 16-7, 16; reset 0 -/
  fanMin : Nat := 0
  /-- GAUGE_ISO c; 8 bits each, 0.25 ns; Table 16-7, 16; reset 0 -/
  iso : Vector Nat 16 := Vector.replicate 16 0
  /-- GAUGE_ZEN c; 16 bits signed each; Table 16-7, 16; reset 0 -/
  zen : Vector Int 16 := Vector.replicate 16 0
  /-- GAUGE_CALINT c; 16 bits each; Table 16-7, 16; reset 168 -/
  calInt : Vector Nat 16 := Vector.replicate 16 168
  /-- GAUGE_NCL k: VOLT; 8 bits each; Table 16-7, 16; reset 75 -/
  volt : Vector Nat 4 := Vector.replicate 4 75
  /-- GAUGE_NCL k: SLACK; 16 bits each; Table 16-7, 16; reset 0 -/
  slack : Vector Nat 4 := Vector.replicate 4 0
  /-- NEEDLE_MARGIN raised per cluster; R463, 16; reset 0 -/
  margin : BitVec 4 := 0
  /-- GAUGE_RON p: FACT; 16 bits each; Table 16-7, 16; reset factory, DESIGN CHOICE 0 before an image is read (log 7) -/
  fact : Vector Nat 128 := Vector.replicate 128 0
  /-- GAUGE_RON p: RON; 16 bits each; Table 16-7, 16; reset 0 -/
  ron : Vector Nat 128 := Vector.replicate 128 0
  /-- ISO_DRIFT raised per Comb: SCOUT margin lacking; R462, 16; reset 0 -/
  isoLow : BitVec 16 := 0
  /-- per port: power-on minute of its last in-service calibration, its ADC offset change in codes and the minutes since the one before; R466, 16; reset none -/
  drift : List (PortIx × Nat × Nat × Nat) := []
  /-- power-on minute at which the start-up calibration of each Comb was applied; R466, 16; reset DESIGN CHOICE 0 (log 7) -/
  calAt : Vector Nat 16 := Vector.replicate 16 0
  /-- causes of Table 16-2 that have arisen (for the measurement entry of a first arising); R470, 16; reset empty -/
  arisen : List (Nat × Nat) := []
  /-- entries waiting for their commit, oldest first; R470, 16; reset empty -/
  queue : List LEntry := []
  /-- start-up and measurement entries of the last 1,440 power-on minutes; R470, 16; reset empty -/
  recent : List Nat := []
  /-- consecutive minutes in which every cluster stood at 0.88 V or less; R464, 16; reset DESIGN CHOICE 0 (log 7) -/
  coolMin : Nat := 0
  /-- erases of each 64 KiB sector, numbered 1024 d + sector, for GAUGE_FLASH; R460, 16; reset DESIGN CHOICE none (log 7) -/
  wear : List (Nat × Nat) := []
  /-- entries programmed into the journal of copies 0 and 1, modulo 4,096; R469, 16; reset DESIGN CHOICE 0 (log 7) -/
  pos : Nat × Nat := (0, 0)
  /-- ledger copy 0, oldest first, at most 4,096; R469, 16; reset DESIGN CHOICE empty (log 7) -/
  copy0 : List LEntry := []
  /-- ledger copy 1, oldest first, at most 4,096; R469, 16; reset DESIGN CHOICE empty (log 7) -/
  copy1 : List LEntry := []
  deriving DecidableEq, Repr

/-! ### Cast-on -/

/-- A commit record (Table 17-5). -/
structure CRec where
  /-- SEQ; 32 bits; Table 17-5, 17 -/
  seq : Nat
  /-- KIND COMMIT (false: RETIRE); Table 17-5, 17 -/
  commit : Bool
  /-- LEN; 32 bits; Table 17-5, 17 -/
  len : Nat
  /-- DIGEST; 32 bytes; Table 17-5, 17 -/
  digest : List Byte
  deriving DecidableEq, Repr

/-- Owner of an image session (R495). -/
inductive Sess where
  | none | host | usb
  deriving DecidableEq, Repr

/-- The image command under way: what it may change of flash and causes, as it stood before the command, and the key it is still to enrol (R497,
R499). -/
structure Nor where
  /-- image slots A and B; R484, 17 -/
  slots : Mem × Mem
  /-- newest commit records of slots A and B; R485, 17 -/
  recs : Option CRec × Option CRec
  /-- records written to the commit areas; R485, 17 -/
  nrec : Nat × Nat
  /-- the key that the commit enrols once its record stands; R482, 17 -/
  key : Option (List Byte)
  /-- verification causes; R483, 17 -/
  causes : Nat × Nat
  deriving DecidableEq, Repr

/-- The CASTON block (Table 17-16) and the flash (R484). -/
structure Caston where
  /-- KEY_FULL; 1 bit; Table 17-16, 17; reset 0 -/
  keyFull : Bool := false
  /-- LOCK_PEND; 1 bit; Table 17-16, 17; reset 0 -/
  lockPend : Bool := false
  /-- ROLE_PEND; 1 bit; Table 17-16, 17; reset 0 -/
  rolePend : Bool := false
  /-- FW_HALT; 1 bit; Table 17-16, 17; reset 0 -/
  fwHalt : Bool := false
  /-- OWNER; 2 bits; R495, 17; reset none -/
  owner : Sess := .none
  /-- FLAGS; 3 bits; Table 17-16, 17; reset 0b111 -/
  flags : BitVec 3 := 0b111
  /-- FALLBACK; 1 bit; Table 17-16, 17; reset 0 -/
  fallback : Bool := false
  /-- NO_IMAGE; 1 bit; Table 17-16, 17; reset 0 -/
  noImage : Bool := false
  /-- RUN: running slot, B for true; Table 17-16, 17; reset none -/
  run : Option Bool := none
  /-- NEXT; Table 17-16, 17; reset none -/
  next : Option Bool := none
  /-- newest commit record of slot A; R485, 17; reset DESIGN CHOICE none (log 7) -/
  recA : Option CRec := none
  /-- newest commit record of slot B; R485, 17; reset DESIGN CHOICE none (log 7) -/
  recB : Option CRec := none
  /-- what the image command under way found, and the key it enrols; R497, R499, 17; reset none -/
  before : Option Nor := none
  /-- records written to the commit areas of slots A and B, modulo 2,048; R485, 17; reset DESIGN CHOICE 0 (log 7) -/
  nrec : Nat × Nat := (0, 0)
  /-- CASTON_VCAUSE A; 8 bits; Table 17-16, 17; reset 0 -/
  causeA : Nat := 0
  /-- CASTON_VCAUSE B; 8 bits; Table 17-16, 17; reset 0 -/
  causeB : Nat := 0
  /-- time of the power-up or restart, for CASTON_BOOT; 64 bits; Table 17-16, 17; reset 0 -/
  bootAt : Nat := 0
  /-- CASTON_BOOT; 16 bits; Table 17-16, 17; reset 0 -/
  boot : Nat := 0
  /-- blocks staged in the session; CASTON_STAGED counts them; R496, 17; reset empty -/
  staged : List Nat := []
  /-- key slots; 256 bits each; R482, 17; reset slot 0 as manufactured -/
  keys : Vector (Option (List Byte)) 4 := ⟨#[some Config.releaseKeyDigest.toList, none, none, none], rfl⟩
  /-- image slot A; 4 MiB; R484, 17; reset DESIGN CHOICE 0 (log 7) -/
  slotA : Mem := []
  /-- image slot B; 4 MiB; R484, 17; reset DESIGN CHOICE 0 (log 7) -/
  slotB : Mem := []
  /-- Supervisor's private copy of the running image; R488, 17; reset empty -/
  image : List Byte := []
  /-- bring-up under way after power-up or restart; R488, 17; reset 1 -/
  booting : Bool := true
  /-- Combs whose start-up calibration of bring-up runs; R94, R488, 17; reset none -/
  calib : BitVec 16 := 0
  /-- a restart is in progress; R502, 17; reset 0 -/
  restarting : Bool := false
  /-- GLB_RST.REJ; 1 bit; Table 17-12, 17; reset 0 -/
  rstRej : Bool := false
  deriving DecidableEq, Repr

/-- The mezzanine (Table 18-7). -/
structure Mezz where
  /-- FITTED; 1 bit, live; Table 18-7, 18; reset DESIGN CHOICE 0 (log 7) -/
  fitted : Bool := false
  /-- ID_ERR; 1 bit; Table 18-7, 18; reset 0 -/
  idErr : Bool := false
  /-- the identity word was read without error since the domain came up; R520, 18; reset 0 -/
  idOk : Bool := false
  /-- MEZZ_ID; 32 bits; Table 18-7, 18; reset 0 -/
  id : Word := 0
  /-- MEZZ_TXN_CNT; 32 bits saturating; Table 18-7, 18; reset 0 -/
  txn : Nat := 0
  /-- MEZZ_ERR_CNT; 32 bits saturating; Table 18-7, 18; reset 0 -/
  err : Nat := 0
  /-- MEZZ_TMO_CNT; 32 bits saturating; Table 18-7, 18; reset 0 -/
  tmo : Nat := 0
  /-- OVF; 1 bit; Table 18-7, 18; reset 0 -/
  ovf : Bool := false
  /-- core of the transaction on the bus; R260, 08; reset none -/
  bus : Option CoreIx := none
  /-- the transaction on the bus is a released Scout entry of this channel; R290, 09; reset none -/
  rel : Option ChIx := none
  /-- core last granted, for the round robin; R260, 08; reset DESIGN CHOICE 15 (log 7) -/
  last : CoreIx := 15
  deriving DecidableEq, Repr

/-- GLB_READY and the GLB block (Tables 17-7, 18-4). -/
structure Glb where
  /-- GLB_READY.IMAGE; 1 bit; Table 17-7, 17; reset 0 -/
  image : Bool := false
  /-- GLB_READY.TICK; 1 bit; Table 17-7, 17; reset 0 -/
  tick : Bool := false
  /-- GLB_READY.MOVE; 1 bit; Table 17-7, 17; reset 0 -/
  move : Bool := false
  /-- GLB_READY.REFLEX; 1 bit; Table 17-7, 17; reset 0 -/
  reflex : Bool := false
  /-- GLB_READY.GAUGE; 1 bit; Table 17-7, 17; reset 0 -/
  gauge : Bool := false
  /-- GLB_READY.NCL; 4 bits; Table 17-7, 17; reset 0 -/
  ncl : BitVec 4 := 0
  /-- GLB_READY.COMB; 16 bits; Table 17-7, 17; reset 0 -/
  comb : BitVec 16 := 0
  /-- GLB_STAT.TICK_REJ; 1 bit; Table 18-5, 18; reset 0 -/
  tickRej : Bool := false
  /-- GLB_XING_OVR; 21 bits; Table 13-7, 13; reset 0 -/
  xovr : BitVec 32 := 0
  /-- GLB_XING_LOST; 21 fields of 4 bits; Table 13-7, 13; reset 0 -/
  xlost : Vector Nat 21 := Vector.replicate 21 0
  /-- pulse crossings: busy until this time and a pulse pending; R407, 13; reset idle -/
  xbusy : Vector (Nat × Bool) 21 := Vector.replicate 21 (0, false)
  deriving DecidableEq, Repr

/-- The CHAN, MOVE and SCOUT blocks (Tables 6-15, 10-13, 9-14). -/
structure Blocks where
  /-- CHAN_SAVE.BASE; bits [31:18]; Table 6-15, 06; reset 0 -/
  save : Word := 0
  /-- CHAN_STAT.WR_BUSY; 1 bit; Table 6-15, 06; reset 0 -/
  chBusy : Bool := false
  /-- CHAN_STAT.CFG_REJ; 1 bit; Table 6-15, 06; reset 0 -/
  chRej : Bool := false
  /-- MOVE_STAT.WR_BUSY; 1 bit; Table 10-13, 10; reset 0 -/
  mvBusy : Bool := false
  /-- MOVE_STAT.CFG_REJ; 1 bit; Table 10-13, 10; reset 0 -/
  mvRej : Bool := false
  /-- MOVE_LOAD; 10 bits; R320, 10; reset 0 -/
  mvLoad : Nat := 0
  /-- bytes moved in the last frames and the mean period of each, newest first, at most 1,024; R320, 10; reset empty -/
  mvLoads : List (Nat × Nat) := []
  /-- move channel last served, RT and BULK; R295, 10; reset DESIGN CHOICE 63 (log 7) -/
  mvLast : McIx × McIx := (63, 63)
  /-- SCOUT_CTRL.EN; 1 bit; Table 9-14, 09; reset 0 -/
  scEn : Bool := false
  /-- SCOUT_CTRL.EN in force; R290, 09; reset 0 -/
  scEnAct : Bool := false
  /-- SCOUT_STAT.MZ_ERR; 1 bit; Table 9-14, 09; reset 0 -/
  scMz : Bool := false
  /-- SCOUT_STAT.CFG_REJ; 1 bit; Table 9-14, 09; reset 0 -/
  scRej : Bool := false
  /-- order counter of operations becoming ready; R182, 06; reset 0 -/
  order : Nat := 0
  /-- I/O queue last fetched, for the round robin; R342, 11; reset DESIGN CHOICE 511 (log 7) -/
  lastQ : QpIx := 511
  /-- entries fetched so far, over all queues; R342, 11; reset 0 -/
  fetched : Nat := 0
  deriving DecidableEq, Repr

/-- The state of the module. -/
structure State where
  /-- commands waiting, first in first out; MODEL: the block's queue (log 1); reset empty -/
  pending : List Instr := []
  /-- tick generator and time base; chapter 02; reset as its fields -/
  tick : Tick := {}
  /-- GLB block; chapters 17, 18; reset as its fields -/
  glb : Glb := {}
  /-- ports 0 to 127; chapters 03, 04; reset as its fields -/
  ports : Vector Port 128 := Vector.replicate 128 {}
  /-- Combs 0 to 15; chapter 03; reset as its fields -/
  combs : Vector Comb 16 := Vector.replicate 16 {}
  /-- graft pairs 0 to 63; chapter 05; reset as its fields -/
  pairs : Vector Pair 64 := Vector.replicate 64 {}
  /-- channels 0 to 255; chapter 06; reset as its fields -/
  chans : Vector Chan 256 := Vector.replicate 256 {}
  /-- Needle cores 0 to 15; chapters 07, 08; reset as its fields -/
  cores : Vector Core 16 := Vector.replicate 16 {}
  /-- cluster SRAM; 4 x 32 KiB; Table 7-5, 07; reset DESIGN CHOICE 0 (log 7) -/
  csram : Vector Mem 4 := Vector.replicate 4 []
  /-- local memory; 3.5 GiB addressable; R34, 01; reset 0 (Table 17-13) -/
  lmem : Mem := []
  /-- move channels 0 to 63; chapter 10; reset as its fields -/
  mcs : Vector Mc 64 := Vector.replicate 64 {}
  /-- queue pairs 0 to 511; chapter 11; reset as its fields -/
  qps : Vector Qp 512 := Vector.replicate 512 {}
  /-- Reflex rules 0 to 511; chapter 12; reset as its fields -/
  rules : Vector Rule 512 := Vector.replicate 512 {}
  /-- CHAN, MOVE and SCOUT blocks; reset as its fields -/
  blk : Blocks := {}
  /-- REFLEX block; chapter 12; reset as its fields -/
  rx : Reflex := {}
  /-- Propolis; chapter 14; reset as its fields -/
  prop : Prop_ := {}
  /-- host interface; chapter 11; reset as its fields -/
  hq : Hostq := {}
  /-- Fanning; chapter 15; reset as its fields -/
  fan : Fan := {}
  /-- mains unit; chapter 15; reset as its fields -/
  psu : Psu := {}
  /-- Gauge; chapter 16; reset as its fields -/
  gauge : Gauge := {}
  /-- Cast-on and flash; chapter 17; reset as its fields -/
  cast : Caston := {}
  /-- mezzanine; chapters 08, 18; reset as its fields -/
  mezz : Mezz := {}
  /-- value returned by the last register read; MODEL: where a read's answer stands (log 11); reset 0 -/
  lastRead : BitVec 64 := 0
  /-- what the module has sent outside, newest first; MODEL (log 11); reset empty -/
  out : List Emit := []
  /-- MODEL: counter of free values drawn (log 9); reset DESIGN CHOICE 0 -/
  free : Nat := 0
  deriving DecidableEq, Repr

/-- The module right after reset: every field at its cold-reset value (R501). -/
def State.reset : State := {}

end Sys2Proof.Machine
end

