-- ==== Sys2Proof/Machine/Ops.lean ====
section
/-! DEFINITION. The named operations over the state: memories, updates of one element, reports to Propolis, saturating counters, port and
Reflex records, what leaves the module, vector requests, completions and pulse crossings. -/

namespace Sys2Proof.Machine

/-- What a meaning answers. -/
abbrev Res := Host.Outcome State Fault Refusal

/-! ### Memories (log entry 8) -/

/-- The byte at an address; an unlisted address reads 0. -/
def Memory.get : Mem → Nat → Byte
  | [], _ => 0
  | (k, b) :: m, a => if k = a then b else Memory.get m a

/-- Write one byte, keeping the canonical form. -/
def Memory.put : Mem → Nat → Byte → Mem
  | [], a, b => if b = 0 then [] else [(a, b)]
  | (k, c) :: m, a, b =>
    if a < k then (if b = 0 then (k, c) :: m else (a, b) :: (k, c) :: m)
    else if a = k then (if b = 0 then m else (k, b) :: m)
    else (k, c) :: Memory.put m a b

/-- The canonical form: addresses strictly rising, no listed zero. -/
def Memory.wf : Mem → Bool
  | [] => true
  | [(_, b)] => b != 0
  | (k, b) :: (k', b') :: m => b != 0 && decide (k < k') && Memory.wf ((k', b') :: m)

/-- Read n bytes from an address upwards. -/
def Memory.read (m : Mem) (a : Nat) : Nat → List Byte
  | 0 => []
  | n + 1 => Memory.get m a :: Memory.read m (a + 1) n

/-- Write bytes from an address upwards. -/
def Memory.write (m : Mem) (a : Nat) : List Byte → Mem
  | [] => m
  | b :: bs => Memory.write (Memory.put m a b) (a + 1) bs

/-- The little-endian word of n bytes at an address (R4). -/
def Memory.num (m : Mem) (a n : Nat) : Nat := ofLeBytes (Memory.read m a n)

/-! ### One element -/

def State.modPort (s : State) (p : PortIx) (f : Port → Port) : State := { s with ports := s.ports.set p (f s.ports[p]) }
def State.modComb (s : State) (c : CombIx) (f : Comb → Comb) : State := { s with combs := s.combs.set c (f s.combs[c]) }
def State.modPair (s : State) (j : PairIx) (f : Pair → Pair) : State := { s with pairs := s.pairs.set j (f s.pairs[j]) }
def State.modChan (s : State) (n : ChIx) (f : Chan → Chan) : State := { s with chans := s.chans.set n (f s.chans[n]) }
def State.modCore (s : State) (k : CoreIx) (f : Core → Core) : State := { s with cores := s.cores.set k (f s.cores[k]) }
def State.modMc (s : State) (m : McIx) (f : Mc → Mc) : State := { s with mcs := s.mcs.set m (f s.mcs[m]) }
def State.modQp (s : State) (q : QpIx) (f : Qp → Qp) : State := { s with qps := s.qps.set q (f s.qps[q]) }
def State.modRule (s : State) (r : RuleIx) (f : Rule → Rule) : State := { s with rules := s.rules.set r (f s.rules[r]) }
def State.modVec (s : State) (v : VecIx) (f : Vec → Vec) : State :=
  { s with hq := { s.hq with vecs := s.hq.vecs.set v (f s.hq.vecs[v]) } }

/-- Fold a state update over a list. -/
def State.each {α : Type} (s : State) (xs : List α) (f : α → State → State) : State := xs.foldl (fun s x => f x s) s

/-- The present time (R49, R50). -/
def State.now (s : State) : Nat := s.tick.now

/-- The time base at an offset on the port clock from the tick edge: a follower's correction is spread evenly over the frame (R60). -/
def Tick.at (t : Tick) (x : Nat) : Nat :=
  if t.slew = 0 then t.edge + x else ((t.edge : Int) + roundDiv ((x : Int) * ((t.len : Int) - t.slew)) (Nat.max 1 t.len)).toNat

/-- Time goes on to an offset from the tick edge; it never goes back (R49). -/
def Tick.reach (t : Tick) (x : Nat) : Tick := { t with ofs := Nat.max t.ofs x, now := Nat.max t.now (t.at x) }

/-- The step by which a follower changes the frame that opens: one of 4 ns towards the upstream edge, from half a step of error on (R60). -/
def Tick.newSlew (t : Tick) : Int :=
  if t.role = .follower ∧ t.link.seen ∧ (t.link.state = .locked ∨ t.link.state = .acquire) then
    (if 8 ≤ t.link.phaseErr then 1 else if t.link.phaseErr ≤ -8 then -1 else 0)
  else 0

/-- The pending period whose count runs out at the coming tick edge; a follower takes it only while LOCKED (R38, R39). -/
def Tick.taken (t : Tick) : Option Word :=
  match t.pend with
  | some (v, 1) => if t.role = .follower ∧ t.link.state ≠ .locked then none else some v
  | _ => none

/-- The period and the accumulator with which the coming frame opens: the accumulator starts at zero with a new period (R36). -/
def Tick.coming (t : Tick) : Word × Nat :=
  match t.taken, t.pend, t.link.adopt with
  | some v, _, _ => (v, 0)
  | none, some (v, 0), _ => (v, t.acc)
  | none, _, some v => (v, 0)
  | none, _, none => (t.act, t.acc)

/-- The tick generator at a tick edge: the edge's timestamp, the length of the frame that opens, the pending period one edge nearer; with `f` what
the link keeps (R36, R38, R60). -/
def Tick.next (t : Tick) (f : TickLink → TickLink) : Tick :=
  let edge := t.at (16 * t.len)
  let (v, acc) := t.coming
  let a := acc + fld v 25 18
  let slew := t.newSlew
  let pend := match t.pend with
    | some (v, 0) => some (v, 0)
    | some (_, 1) => t.taken.map fun v => (v, 0)
    | some (v, n + 2) => some (v, n + 1)
    | none => none
  { t with edge := edge, now := Nat.max t.now edge, ofs := 0, frames := t.frames + 1, acc := a % 256
           len := ((fld v 17 0 + (if 256 ≤ a then 1 else 0) : Nat) + slew).toNat, slew := slew, phase := .edge
           act := if pend.isSome && (pend.map (·.2)) == some 0 then t.act else t.link.adopt.getD t.act
           pend := pend, link := f { t.link with adopt := none } }

/-- The length of the frame that opens next (R36). -/
def Tick.upcoming (t : Tick) : Nat := (t.next id).len

/-- The points of a frame, in order (R14, Table 2-1). -/
def Phase.before : Phase → Phase
  | .edge => .seal
  | .dispatch => .edge
  | .input => .dispatch
  | .stage => .input
  | .seal => .stage

/-- The offset of the next point of the frame (Table 2-1). -/
def Tick.point (t : Tick) : Nat :=
  match t.phase with
  | .edge => 160
  | .dispatch => 2080
  | .input => 16 * t.len - 6000
  | .stage => 16 * t.len - 1000
  | .seal => 16 * t.len

/-- The next point of the frame is reached. -/
def Tick.pass (t : Tick) (p : Phase) : Tick := { t.reach t.point with phase := p }

/-- A point of the frame comes where it stands next in the order of Table 2-1, and only while the module ticks (R14, R41; log entry 3). -/
def State.atPoint (s : State) (p : Phase) (f : State → State) : State :=
  if !s.glb.tick || s.tick.phase != p.before then s else f { s with tick := s.tick.pass p }

/-- One period of the port clock passes, 16 LSB (R49), but not beyond the next point of the frame, which has a command of its own. -/
def State.period (s : State) : State :=
  if s.psu.bind = .off || !s.glb.tick then s
  else { s with tick := s.tick.reach (Nat.min (16 * (s.tick.ofs / 16 + 1)) s.tick.point) }

/-- An edge is stamped by the TDC at an offset within the running period of the port clock, and no earlier than what has happened (R27, R28, R50). -/
def State.tdc (s : State) (t : BitVec 4) : State :=
  if !s.glb.tick then s else { s with tick := s.tick.reach (Nat.min (16 * (s.tick.ofs / 16) + t.toNat) s.tick.point) }

/-- The Comb of a port (R5). -/
def combOf (p : PortIx) : CombIx := finOf 16 (p.val / 8)
/-- The ports of a Comb (R5). -/
def portsOf (c : CombIx) : List PortIx := (List.range 8).map fun l => finOf 128 (8 * c.val + l)
/-- The pair of a port (R143). -/
def pairOf (p : PortIx) : PairIx := finOf 64 (p.val / 2)
/-- The cluster of a core (Table 7-4). -/
def clusterOf (k : CoreIx) : Fin 4 := finOf 4 (k.val / 4)

/-- GLB_READY of a Comb and of a core's cluster (Table 17-7). -/
def State.combReady (s : State) (c : CombIx) : Bool := s.glb.comb.getLsbD c.val
def State.nclReady (s : State) (k : Fin 4) : Bool := s.glb.ncl.getLsbD k.val

/-- A domain's state (R450). -/
def State.dom (s : State) (n : Nat) : Dom := s.fan.dom[(finOf 32 n)]

/-- Draw a fresh free value (log entry 9). -/
def State.draw (s : State) : Word × State := (Config.freeWord s.free, { s with free := s.free + 1 })

/-- Draw fresh free bytes. -/
def State.drawBytes (s : State) (n : Nat) : List Byte × State :=
  ((List.range n).map fun i => (Config.freeWord (s.free + i)).truncate 8, { s with free := s.free + n })

/-! ### Reports and counters -/

/-- Send a report to Propolis (R411, R412); its TS is the present time (R426). -/
def State.report (s : State) (utype index cause detail : Nat) (data : Word) : State :=
  { s with prop := { s.prop with reports := s.prop.reports ++ [⟨⟨utype, index⟩, cause, detail, data, s.now, none⟩] } }

/-- The one notice of a saturating counter that reaches its maximum from below (R403). -/
def State.cntSat (s : State) (utype index addr old : Nat) : State :=
  if old = 0xFFFFFFFE then s.report utype index 0xA1 0 (toW addr) else s

/-- BAR0 offset of a register of a port (R6, R522). -/
def portAddr (p : PortIx) (ofs : Nat) : Nat := 0x01000000 + (p.val / 8) * 0x10000 + 0x1000 + (p.val % 8) * 0x200 + ofs

/-! ### Port event queue (R108 to R111, R395 to R400) -/

/-- Push a record into an event queue: discarded and counted when 64 are unread; otherwise it may overwrite the oldest retained record
and with it the mark (R111, R395, R397). -/
def PortEvq.push (e : PortEvq) (code : Nat) (data : Word) (ts : Nat) : PortEvq :=
  let seq := (e.seq + 1) % 256
  if 64 ≤ e.unread.length then { e with seq := seq, lost := satInc e.lost }
  else
    let r : EvRec := ⟨ts, data, code, seq⟩
    if e.unread.length + e.ret.length < 64 then { e with seq := seq, unread := e.unread ++ [r] }
    else
      let hit := decide (0 < e.ret.length) && e.mark == some (e.ret.length : Int)
      { e with seq := seq, unread := e.unread ++ [r], ret := e.ret.drop 1
               mark := if hit then none else e.mark, markLost := e.markLost || hit }

/-- Pop the oldest unread record; it stays as a retained record (R110, R395). -/
def PortEvq.pop (e : PortEvq) : Option EvRec × PortEvq :=
  match e.unread with
  | [] => (none, e)
  | r :: rs => (some r, { e with unread := rs, ret := e.ret ++ [r], mark := e.mark.map (· + 1) })

/-- Place the mark at the read pointer (R396). -/
def PortEvq.setMark (e : PortEvq) : PortEvq := { e with mark := some 0 }

/-- Move the read pointer back over the n youngest retained records. -/
def PortEvq.back (e : PortEvq) (n : Nat) : PortEvq :=
  { e with ret := e.ret.take (e.ret.length - n), unread := e.ret.drop (e.ret.length - n) ++ e.unread, mark := e.mark.map (· - n) }

/-- REWIND: to a valid mark that lies behind the read pointer, or a failure (R396, R398). -/
def PortEvq.rewind (e : PortEvq) : PortEvq :=
  match e.mark with
  | none => { e with rwFail := true }
  | some d => if 0 < d then e.back d.toNat else e

/-- REWIND_OLDEST (R399). -/
def PortEvq.rewindOldest (e : PortEvq) : PortEvq := e.back e.ret.length

/-- Flush: unread and retained records and the mark go (R394, R400). -/
def PortEvq.flush (e : PortEvq) : PortEvq := { e with unread := [], ret := [], mark := none }

/-- MARKED (R396). -/
def PortEvq.marked (e : PortEvq) : Nat := (e.mark.getD 0).toNat

/-- A port posts an event record (R108, R111). -/
def State.postEv (s : State) (p : PortIx) (code : Nat) (data : Word) (ts : Nat) : State :=
  let old := s.ports[p].ev.lost
  let s := s.modPort p fun x =>
    let ev := x.ev.push code data ts
    { x with ev := ev, st := { x.st with ovf := x.st.ovf || (ev.lost == 0xFFFFFFFF && old != 0xFFFFFFFF) } }
  if s.ports[p].ev.lost = old then s else s.cntSat 0x01 p.val (portAddr p 0x54) old

/-- Bytes 8 to 15 of a record, as PC_EVQ_POP returns them (R110, Table 4-6). -/
def EvRec.word (r : EvRec) (p : PortIx) : Nat :=
  r.data.toNat + put r.code 32 + put p.val 40 + put r.seq 48 + 2 ^ 63

/-! ### Reflex event queue (R384) -/

/-- Post a Reflex record; discarded and counted when 256 are held (R111, R384). A count that saturates sets REFLEX_STAT.OVF (R402). -/
def State.postRx (s : State) (rule code tgt src : Nat) (ts : Nat) : State :=
  let seq := (s.rx.seq + 1) % 256
  if 256 ≤ s.rx.evq.length then
    let old := s.rx.lost
    let s := { s with rx := { s.rx with seq := seq, lost := satInc old, ovf := s.rx.ovf || old == 0xFFFFFFFE } }
    s.cntSat 0x13 0 0x7018 old
  else { s with rx := { s.rx with seq := seq, evq := s.rx.evq ++ [⟨ts, rule, code, tgt, src, seq, s.rx.coil⟩] } }

/-- Bytes 8 to 15 of a Reflex record (Table 12-7). -/
def RxRec.word (r : RxRec) : Nat :=
  r.rule + put r.code 16 + put r.tgt 24 + put r.src 32 + put r.seq 40 + put r.de.toNat 48 + 2 ^ 63

/-! ### What leaves the module (log entry 11) -/

/-- Something leaves the module. -/
def State.emit (s : State) (e : Emit) : State := { s with out := e :: s.out }

/-- A PME cause in D3hot: with PME_En set, PME_Status is set and PM_PME sent, unless it stands set already (R350). -/
def State.pmeDue (s : State) : State :=
  if s.hq.pmeEn && !s.hq.pme then { s with hq := { s.hq with pme := true } }.emit .pme else s

/-- A write to host memory: issued, held in D3hot, or discarded when the host interface issues nothing (R350, R362, R440). -/
def State.hostWrite (s : State) (addr : Nat) (bytes : List Byte) : State :=
  if !s.hq.issues then s
  else if s.hq.d3 then { s with hq := { s.hq with held := s.hq.held ++ [HeldWrite.data addr bytes] } }.pmeDue
  else s.emit (.hostWrite addr bytes)

/-- Send a vector's message: the PBA bit instead while masked, waiting in D3hot (R347, R348, R350). A new IRQ_MOD takes effect here (R357). -/
def State.sendVec (s : State) (v : VecIx) : State :=
  let x := s.hq.vecs[v]
  let s := s.modVec v fun x => { x with count := 0, thr := (x.new.map (·.1)).getD x.thr, time := (x.new.map (·.2)).getD x.time, new := none }
  if x.mask || s.hq.fmask then s.modVec v fun x => { x with pba := true }
  else if !s.hq.issues then s
  else if s.hq.d3 then (s.modVec v fun x => { x with due := true }).pmeDue
  else s.emit (.msix v.val x.msg)

/-- A request on a vector under its moderation (R346, R347). -/
def State.reqVec (s : State) (v : VecIx) : State :=
  let x := s.hq.vecs[v]
  if x.thr ≤ 1 then s.sendVec v
  else if x.thr ≤ x.count + 1 then s.sendVec v
  else s.modVec v fun x => { x with count := x.count + 1 }

/-! ### Local memory and channel addresses (R169) -/

/-- Stores by any other agent to a granule clear a core's reservation on it (R227): `hit` says whether a core's reservation,
as a data address and its LMW base, lies in the bytes written. -/
def State.clearRsv (s : State) (but : Option CoreIx) (hit : CoreIx → Nat → Nat → Bool) : State :=
  { s with cores := s.cores.mapFinIdx fun k c h =>
      match c.cr.rsv with
      | some (g, w) => if some (⟨k, h⟩ : CoreIx) ≠ but ∧ hit ⟨k, h⟩ g w then { c with cr := { c.cr with rsv := none } } else c
      | none => c }

/-- Whether a reservation's granule, seen in local memory, meets n bytes from offset a. -/
def granuleInLocal (g w a n : Nat) : Bool :=
  let d := g * 32
  decide (0x40000000 ≤ d) && decide (d < 0x80000000) &&
    (let o := w * 0x10000000 + (d - 0x40000000)
     decide (o < a + n) && decide (a < o + 32))

/-- A write to local memory by an agent (R226, R227, R304). -/
def State.localWrite (s : State) (by_ : Option CoreIx) (a : Nat) (bytes : List Byte) : State :=
  { s with lmem := Memory.write s.lmem a bytes }.clearRsv by_ fun _ g w => granuleInLocal g w a bytes.length

/-- Addressable local memory: 3.5 GiB (R34, R169). -/
def localEnd : Nat := 0xE0000000

/-- Bit 63 of a channel address (R169). -/
def isHost (a : Nat) : Bool := decide (2 ^ 63 ≤ a)

/-- A channel address that R169 allows for n bytes. -/
def chanAddrOk (a n : Nat) : Bool := isHost a || decide (a + n ≤ localEnd)

/-- A write through a channel address (R169). -/
def State.chanWrite (s : State) (a : Nat) (bytes : List Byte) : State :=
  if isHost a then s.hostWrite (a - 2 ^ 63) bytes else s.localWrite none a bytes

/-- What an engine does whose host-memory writes a host reset discards, where `cut` (R362). -/
def State.muted (s : State) (cut : Bool) (f : State → State) : State :=
  if cut then
    let t := f { s with hq := { s.hq with issues := false } }
    { t with hq := { t.hq with issues := s.hq.issues } }
  else f s

/-! ### Completions (R338 to R344) -/

/-- A command ends: its completion waits in its queue's backlog (R344). -/
def State.complete (s : State) (c : Cmd) (status detail result : Nat) : State :=
  s.modQp c.q fun x => { x with done := x.done ++ [⟨c.k, s.now, c.cid, status, detail, result, c.noirq⟩] }

/-- An INVALID_FIELD completion (R341). -/
def State.invalid (s : State) (c : Cmd) (cause result : Nat) : State := s.complete c 0x30 cause result

/-- Status codes (Table 11-6). -/
def stOk : Nat := 0x00
def stOkScout : Nat := 0x01
def stProgram : Nat := 0x10
def stBudget : Nat := 0x11
def stMove : Nat := 0x12
def stAccess : Nat := 0x13
def stCleared : Nat := 0x20
def stFenced : Nat := 0x21
def stDomain : Nat := 0x22
def stQueue : Nat := 0x31

/-- The depth of a queue pair's rings (R330). -/
def Qp.depth (q : Qp) : Nat := 2 ^ q.dlog

/-- Difference of two free-running counts (R331). -/
def cdiff (a b : Nat) : Nat := (a + 2 ^ 32 - b) % 2 ^ 32

/-- I/O commands in flight (R343). -/
def State.inflight (s : State) : Nat := (s.qps.toList.drop 1).foldl (fun n q => n + cdiff q.f q.d) 0

/-! ### Pulse crossings (R405 to R407) -/

/-- A pulse enters a crossing: it crosses, is held as pending, or is lost and counted. How long the crossing is busy is a free value
of at most 256 LSB (log entry 9). -/
def State.pulse (s : State) (x : Fin 21) : State :=
  let (w, s) := s.draw
  let busy := 48 + w.toNat % 208
  let (u0, pend0) := s.glb.xbusy[x]
  -- a pending pulse crosses as soon as the acknowledgement is seen
  let (u, pend) := if pend0 && decide (u0 ≤ s.now) then (u0 + busy, false) else (u0, pend0)
  if u ≤ s.now then { s with glb := { s.glb with xbusy := s.glb.xbusy.set x (s.now + busy, false) } }
  else if !pend then { s with glb := { s.glb with xbusy := s.glb.xbusy.set x (u, true) } }
  else
    let was := s.glb.xovr.getLsbD x.val
    let s := { s with glb := { s.glb with xovr := s.glb.xovr ||| (1#32 <<< x.val)
                                          xlost := s.glb.xlost.set x (Nat.min 15 (s.glb.xlost[x] + 1)) } }
    if was then s else s.report 0x15 x.val 0xA0 0 0

end Sys2Proof.Machine
end

