-- ==== Sys2Proof/Machine/Pins.lean ====
section
/-! DEFINITION. The pins: modes and their options (Tables 3-2, 4-3), groups (R102, R103, R147), the code ranges and clamps (R73, R74),
the level an analogue output has reached (R81), and what a source above the tick commit does to a pin (Tables 1-3, 12-5, 12-6). -/

namespace Sys2Proof.Machine

/-! ### Modes (Table 3-2) -/

def mIdle : Nat := 0x00
def mAoV : Nat := 0x01
def mAoI : Nat := 0x02
def mAiV : Nat := 0x03
def mAiI : Nat := 0x04
def mDi : Nat := 0x08
def mDo : Nat := 0x09
def mDiff : Nat := 0x10
def mPulse : Nat := 0x14
def mRes : Nat := 0x18
def mSsi : Nat := 0x1C
def mSerial : Nat := 0x20
def mLoop : Nat := 0x22
def mReader : Nat := 0x28

/-- The encodings that R67 lists. -/
def modeOk (m : Nat) : Bool := [mIdle, mAoV, mAoI, mAiV, mAiI, mDi, mDo, mDiff, mPulse, mRes, mSsi, mSerial, mLoop, mReader].contains m

/-- MODE in effect; a changeover frame has none of the functions (R68). -/
def Port.md (x : Port) : Nat := if x.a.change.isSome then 0xFF else fld x.a.mode 5 0

/-- A field of PC_RANGE in effect. -/
def Port.opt (x : Port) (hi lo : Nat) : Nat := fld x.a.range hi lo

/-- The MODE to which the port is bound once every accepted write has taken effect, and the one it has now or is entering (R68, R70). -/
def Port.modeNow (x : Port) : Nat := fld (x.a.change.getD x.a.mode) 5 0
/-- A change of MODE waits for its tick edge (R68). -/
def Port.modeWaits (x : Port) : Bool := fld x.r.mode 5 0 != x.modeNow

def Port.isAo (x : Port) : Bool := x.md == mAoV || x.md == mAoI

/-! ### FUNC_OPT (R105, Table 4-3) -/

/-- Local index of a port (R5). -/
def lix (p : PortIx) : Nat := p.val % 8

/-- The PC_RANGE bits that Table 4-3 and GAIN list for a mode; the rest are reserved and read 0 (R511). -/
def rangeMask (m : Nat) (l : Nat) (v : Word) : Word :=
  let f : Word :=
    if m = mDi then 0xFFFFF000
    else if m = mDo then 0x00000100
    else if m = mDiff then 0xFFFDF800
    else if m = mPulse then (if fld v 31 30 = 0 then 0xFFFFFF00 else if fld v 31 30 = 2 then 0xFFFFFF00 else 0xF0000000)
    else if m = mRes then (if fld v 31 30 = 0 then 0xFFFFFF00 else 0xC0000000)
    else if m = mSsi then (if bit v 31 then 0x80000000 else 0xFFFFFF00)
    else if m = mSerial then 0xFFFFFF00
    else if m = mLoop then 0xFF9FFF00
    else if m = mReader then (if l = 0 then 0xFFFFFF00 else 0)
    else 0xFFFFFF00
  -- BAUD takes bits [20:0] (Table 4-3), so bits [7:0] are option bits there
  v &&& (f ||| (if m = mSerial || m = mLoop then 0xFF else 0x3))

/-- Whether Table 4-3 allows the options for the mode, at local index l. -/
def funcOk (m : Nat) (l : Nat) (v : Word) : Bool :=
  if m = mDiff then
    let cnt := fld v 31 28
    decide (cnt < 8) && fld v 27 26 != 3 &&
      -- CEDGE 0b00 is reserved, LEDGE 0b00 with LSRC_EN
      fld v 25 24 != 0 && !(bit v 20 && fld v 19 18 == 0)
  else if m = mPulse then
    fld v 31 30 != 3 && fld v 29 28 != 3 &&
      !(fld v 31 30 == 2 && decide (fld v 27 8 < 25))
  else if m = mRes then
    let role := fld v 31 30
    role != 3 && !(role == 0 && (decide (fld v 29 13 < 12500) || decide (125000 < fld v 29 13) || fld v 12 10 == 0))
  else if m = mSsi then
    bit v 31 || (decide (8 ≤ fld v 30 24) && decide (fld v 30 24 ≤ 48) && decide (13 ≤ fld v 23 13) && decide (fld v 23 13 ≤ 1250))
  else if m = mSerial then
    decide (fld v 29 27 ≤ 4) && fld v 24 23 != 3 && decide (68 ≤ fld v 20 0) && decide (fld v 20 0 ≤ 1250000)
  else if m = mLoop then
    decide (fld v 29 27 ≤ 4) && fld v 24 23 != 3 && decide (3255 ≤ fld v 20 0) && decide (fld v 20 0 ≤ 1250000)
  else if m = mReader then
    l != 0 || (fld v 29 20 != 0 && fld v 19 10 != 0)
  else true

/-- GAIN 0b11 is reserved (Table 3-15); in SERIAL and LOOP20 its bits belong to BAUD. -/
def gainOk (m : Nat) (v : Word) : Bool := m == mSerial || m == mLoop || fld v 1 0 != 3

/-- The options in effect are valid for the mode in effect (R105). -/
def optOk (p : PortIx) (x : Port) : Bool := funcOk x.md (lix p) x.a.range

/-! ### Graft pairs seen from their ports (R143, R145, R149) -/

def upPort (j : PairIx) : PortIx := finOf 128 (2 * j.val)
def dnPort (j : PairIx) : PortIx := finOf 128 (2 * j.val + 1)

/-- PC_GRAFT of the pair. -/
def State.graftReg (s : State) (j : PairIx) : Word := s.ports[upPort j].r.graft
def gDir (g : Word) : Bool := bit g 3
def gSig (g : Word) : Nat := fld g 6 4
def gMode (g : Word) : Nat := fld g 2 0

def State.measPort (s : State) (j : PairIx) : PortIx := if gDir (s.graftReg j) then dnPort j else upPort j
def State.drivPort (s : State) (j : PairIx) : PortIx := if gDir (s.graftReg j) then upPort j else dnPort j

/-- A port of a linked pair (R144). -/
def State.linked (s : State) (p : PortIx) : Bool := s.pairs[pairOf p].link
/-- The port is the driving port of a linked pair. -/
def State.isDriving (s : State) (p : PortIx) : Bool := s.linked p && s.drivPort (pairOf p) == p
def State.isMeasuring (s : State) (p : PortIx) : Bool := s.linked p && s.measPort (pairOf p) == p

/-! ### Groups (R102, R103, R147) -/

/-- The part a port's settings in effect give it in a group of Table 4-2. -/
inductive GRole where
  | none | cntLead | cntMember | stepLead | dirMember | exc | sine | cos | ssiClk | ssiData | reader
  deriving DecidableEq, Repr

def groleOf (x : Port) : GRole :=
  let m := x.md
  if m = mDiff then (if x.opt 31 28 = 7 then .cntMember else if 1 ≤ x.opt 31 28 ∧ x.opt 31 28 ≤ 5 then .cntLead else .none)
  else if m = mPulse then (if x.opt 31 30 = 0 then .stepLead else if x.opt 31 30 = 1 then .dirMember else .none)
  else if m = mRes then (if x.opt 31 30 = 0 then .exc else if x.opt 31 30 = 1 then .sine else .cos)
  else if m = mSsi then (if bit x.a.range 31 then .ssiData else .ssiClk)
  else if m = mReader then .reader
  else .none

/-- The pair of the same Comb with local number i. -/
def localPair (p : PortIx) (i : Nat) : PairIx := finOf 64 (4 * (p.val / 8) + i % 4)
/-- Port of the same Comb with local index i. -/
def localPort (p : PortIx) (i : Nat) : PortIx := finOf 128 (8 * (p.val / 8) + i % 8)

/-- The members that a lead needs, with their roles; none where the port cannot lead (Table 4-2, R147). -/
def State.groupFrom (s : State) (p : PortIx) : Option (List (PortIx × GRole)) :=
  let l := lix p
  let j := l / 2
  let lk := s.linked p
  match groleOf s.ports[p] with
  | .cntLead =>
    if lk then (if s.isMeasuring p && j % 2 == 0 then some [(s.measPort (localPair p (j + 1)), .cntMember)] else none)
    else if l % 2 = 0 then some [(localPort p (l + 1), .cntMember)] else none
  | .stepLead =>
    if lk then (if s.isDriving p && j % 2 == 0 then some [(s.drivPort (localPair p (j + 1)), .dirMember)] else none)
    else if l % 2 = 0 then some [(localPort p (l + 1), .dirMember)] else none
  | .exc =>
    if lk then (if s.isDriving p && decide (j ≤ 1) then
      some [(s.measPort (localPair p (j + 1)), .sine), (s.measPort (localPair p (j + 2)), .cos)] else none)
    else if l ≤ 5 then some [(localPort p (l + 1), .sine), (localPort p (l + 2), .cos)] else none
  | .ssiClk => if l % 2 = 0 then some [(localPort p (l + 1), .ssiData)] else none
  | .reader => if l = 0 then some ((List.range 7).map fun i => (localPort p (i + 1), .reader)) else none
  | _ => none

/-- A lead's group is complete: every member is in its role and mode, with valid options (R103, R105). -/
def State.leadComplete (s : State) (p : PortIx) : Bool :=
  match s.groupFrom p with
  | none => false
  | some ms => optOk p s.ports[p] && ms.all fun (q, r) => groleOf s.ports[q] == r && optOk q s.ports[q]

/-- The lead whose group a member belongs to. -/
def State.leadOf (s : State) (p : PortIx) : Option PortIx :=
  (portsOf (combOf p)).find? fun q => ((s.groupFrom q).getD []).any (·.1 == p)

/-- The port is in no incomplete group (R103). -/
def State.groupOk (s : State) (p : PortIx) : Bool :=
  match groleOf s.ports[p] with
  | .none => optOk p s.ports[p]
  | .cntLead | .stepLead | .exc | .ssiClk => s.leadComplete p
  | .reader => s.leadComplete (localPort p 0)
  | .cntMember | .dirMember | .sine | .cos | .ssiData => match s.leadOf p with
    | some q => s.leadComplete q
    | none => false

/-- The sine and cosine ports of an excitation port's group. -/
def State.windings (s : State) (p : PortIx) : List PortIx := ((s.groupFrom p).getD []).map (·.1)

/-- The port is the lead of a counting pair or counts alone (R119, R120). -/
def Port.counts (x : Port) : Bool := x.md == mDiff && decide (1 ≤ x.opt 31 28) && decide (x.opt 31 28 ≤ 6)

/-! ### Output modes -/

/-- The port is in an output mode (Table 12-5). -/
def Port.outMode (x : Port) : Bool :=
  let m := x.md
  m == mAoV || m == mAoI || m == mDo || m == mPulse || (m == mRes && x.opt 31 30 == 0) || (m == mSsi && !bit x.a.range 31) ||
    ((m == mSerial || m == mLoop) && !bit x.a.range 31) || m == mReader

/-- Transmits characters (R138). -/
def Port.transmits (x : Port) : Bool := (x.md == mSerial || x.md == mLoop) && !bit x.a.range 31
def Port.receives (x : Port) : Bool := (x.md == mSerial || x.md == mLoop) && bit x.a.range 31

/-- A function that depends on the field supply (R104). -/
def State.fsDependent (s : State) (p : PortIx) : Bool :=
  let x := s.ports[p]
  x.md == mDo || (x.md == mPulse && x.opt 29 28 == 2) || (x.md == mReader && bit s.ports[localPort p 0].a.range 31)

/-! ### Codes and clamps (R73, R74) -/

/-- The code range of a measured input or read-back (Table 3-3, R73). -/
def codeRange (x : Port) : Int × Int := if x.md = mAoI ∨ x.md = mAiI then (-21333, 524287) else (-524288, 524287)

/-- The ILIM cap of AO_I (R74). -/
def ilimCap (lim : Word) : Int :=
  let i := fld lim 4 0
  if 1 ≤ i ∧ i ≤ 24 then ((i * 2133333 / 100 : Nat) : Int) else 512000

/-- A value clamped as R74 states, and whether it was. -/
def clampOut (x : Port) (v : Int) : Int × Bool :=
  let c := clampI (-524288) 524287 v
  let c := if x.md = mAoI then clampI 0 (min 512000 (ilimCap x.a.limits)) c else c
  (c, c != v)

/-- The set of coefficients that the mode and range in force use: one for every mode whose converters work, and for each range (R93). -/
def calIx (x : Port) : Option (Fin 18) :=
  let m := x.md
  let gain := Nat.min 2 (x.opt 1 0)
  if m = mAoV then some 0 else if m = mAoI then some 1
  else if m = mAiV then some (finOf 18 (2 + gain))
  else if m = mAiI then some 5
  else if m = mDi then some 6 else if m = mDo then some 7 else if m = mDiff then some 8 else if m = mPulse then some 9
  else if m = mRes then some (if x.opt 31 30 = 0 then 10 else finOf 18 (11 + gain))
  else if m = mSsi then some 14 else if m = mSerial then some 15 else if m = mLoop then some 16 else if m = mReader then some 17
  else none

def Port.calSet (x : Port) : CalSet := match calIx x with | some i => x.st.cal[i] | none => {}

/-- adc: a raw conversion to its code before saturation, to the nearest code, halves upwards (R93; log entry 88). -/
def adcCode (c : CalSet) (raw : Int) : Int := roundDiv (raw * (2 ^ 22 + c.adcGain.toInt) + c.adcOfs.toInt * 2 ^ 22) (2 ^ 22)

/-- dac: a target code to the DAC's input, saturated to the code range of its mode (R93; log entry 88). -/
def dacIn (x : Port) (v : Int) : Int :=
  let c := x.calSet
  let d := roundDiv (v * (2 ^ 22 + c.dacGain.toInt) + c.dacOfs.toInt * 2 ^ 22) (2 ^ 22)
  if x.md = mAoI then clampI 0 512000 d else if x.md = mAoV then clampI (-524288) 524287 d else v

/-- The current limit in force at an output, µA (R82, R106); in ARMING with its own ceiling (R157). -/
def State.ilimUa (s : State) (p : PortIx) : Option Nat :=
  let x := s.ports[p]
  let i := fld x.a.limits 4 0
  let upTo (n unit hard : Nat) : Nat := if 1 ≤ i ∧ i ≤ n then i * unit else hard
  let base := if x.md = mAoV then some (upTo 25 1000 25000)
    else if s.fsDependent p then some (upTo 24 50000 1200000)
    else if x.md = mRes ∧ x.opt 31 30 = 0 then some (upTo 16 5000 80000) else none
  if s.isDriving p && s.pairs[pairOf p].mode == .arming then
    base.map fun b => Nat.min b (if gSig (s.graftReg (pairOf p)) = 2 then 100000 else 5000)
  else base

/-! ### The level an analogue output has reached (R81) -/

/-- Codes that the slew limit allows in n LSB of the time base. -/
def slewCodes (x : Port) (n : Nat) : Int :=
  let f := fld x.a.limits 15 8
  if x.md = mAoI then ((if f = 0 ∨ 240 < f then 240 else f) * 3200 * n / 12000 : Nat)
  else ((if f = 0 ∨ 250 < f then 250 else f) * 1024 * n / 4000 : Nat)

/-- The level at time t. -/
def Port.levelAtT (x : Port) (t : Nat) : Int :=
  if !x.isAo then x.o.act
  else
    let d := slewCodes x (t - x.o.levelAt)
    if x.o.level ≤ x.o.act then min x.o.act (x.o.level + d) else max x.o.act (x.o.level - d)

/-- Temperature or the field supply keeps the stage off (R87, R104). -/
def Port.shut (x : Port) : Bool := x.o.therm || x.o.thermWait.isSome || x.o.fs

/-- The output turns to a new target from the level it has reached; a stage that leaves high-impedance starts from the last conversion (R81).
A stage that is shut takes the target and stays off. -/
def Port.aim (x : Port) (t : Nat) (v : Int) : Port :=
  let go := !x.shut
  let lv := if !go then x.o.level else if x.o.driving then x.levelAtT t else if x.isAo then x.i.last else v
  { x with o := { x.o with level := lv, levelAt := t, act := v, dac := dacIn x v, on := true, driving := go
                           steady := x.o.steady && v == x.o.act && x.o.on
                           upset := x.o.upset || (go && x.isAo && lv != v) } }

/-- The stage is off, whatever it is told (R87, R104). -/
def Port.shutPin (x : Port) (t : Nat) : Port :=
  { x with o := { x.o with level := x.levelAtT t, levelAt := t, driving := false } }

/-- The output stage goes high-impedance. -/
def Port.floatPin (x : Port) (t : Nat) : Port :=
  let x := x.shutPin t
  { x with o := { x.o with on := false, steady := false } }

/-- Nothing keeps the stage off any longer: towards the target in force, from 0 (R87, R104). -/
def Port.resume (x : Port) (t : Nat) : Port :=
  if x.o.on && !x.o.driving && !x.shut then
    { x with o := { x.o with level := 0, levelAt := t, driving := true, upset := x.o.upset || (x.isAo && x.o.act != 0) } }
  else x

/-- The driven level rises or falls no further than it has until now: a new slew limit counts from here (R81). -/
def Port.anchor (x : Port) (t : Nat) : Port := if x.o.driving then { x with o := { x.o with level := x.levelAtT t, levelAt := t } } else x

/-! ### Actions above the tick commit (Tables 1-3, 12-4 to 12-6) -/

/-- An action value for the port's mode (Table 12-5): a code, clamped where the pin takes it, or a bit. -/
def actionValue (x : Port) (v : Word) : Int :=
  if x.md = mAoV ∨ x.md = mAoI then v.toInt else ((v.toNat % 2 : Nat) : Int)

/-- The value of PC_SAFE as an action value: signed 20-bit in AO_V, unsigned in the rest (Table 12-6). -/
def safeWord (x : Port) : Word := if x.md = mAoV then toWi (sfld x.r.safe 20) else toW (fld x.r.safe 19 0)

/-- What the safe state of a port demands (R378): HOLD takes the level frozen at its application. -/
def safeHold (x : Port) (t : Nat) : Held × Option Int :=
  match fld x.r.safe 29 28 with
  | 0 => (.value (actionValue x (safeWord x)), none)
  | 1 => match x.o.frozen with
    | some v => (.level v, some v)
    | none => if x.o.driving then (.level (x.levelAtT t), some (x.levelAtT t)) else (.hiz, none)
  | _ => (.hiz, none)

def State.fencedObj (s : State) (o : Obj) : Bool := s.prop.fences.any (·.1 == o)
def State.combFenced (s : State) (c : CombIx) : Bool := s.fencedObj (.comb c)
def State.chanFenced (s : State) (n : ChIx) : Bool := s.fencedObj (.chan n)

/-- The port belongs to a channel (R378). -/
def Port.owner (x : Port) : Option ChIx := if bit x.r.safe 31 then some (finOf 256 (fld x.r.safe 27 20)) else none

/-- Bind-off, or a restart that runs through it, holds the module (R440, R505). -/
def State.bound (s : State) : Bool := s.psu.bind != .none || s.cast.restarting

/-- The lowest-numbered rule that holds the port with an action (R375). -/
def State.ruleHolding (s : State) (p : PortIx) : Option RuleIx :=
  (allFin 512).find? fun r =>
    let x := s.rules[r]
    x.holding && fld x.act 31 28 != 0 && fld x.act 22 16 == p.val

/-- What a rule's action demands (Table 12-4). -/
def ruleHold (x : Port) (r : Rule) (t : Nat) : Held × Option Int :=
  match fld r.act 31 28 with
  | 1 => (.value (actionValue x r.value), none)
  | 2 => safeHold x t
  | _ => (.hiz, none)

/-- A driving port whose bypass contact did not close keeps regenerating, also on a fenced Comb (R165). -/
def State.stuckPair (s : State) (p : PortIx) : Bool := s.isDriving p && s.pairs[pairOf p].closeFail

/-- The pin takes actions: an output mode, no graft measuring port, and no driving port of a pair in BYPASS, whose line the relay joins
(R18, R150, Table 12-5). -/
def State.takesActions (s : State) (p : PortIx) : Bool :=
  s.ports[p].outMode && !s.isMeasuring p && !(s.isDriving p && s.pairs[pairOf p].mode == .bypass)

/-- The hold that governs a pin, with the value frozen by a HOLD safe state and whether it is of rank 1 (R16, Table 1-3). In Bind-off a driving
port follows R164 in place of every rank: free, until all driving ports have gone high-impedance. With the Comb supplies off nothing drives a pin
(R440). -/
def State.holdOf (s : State) (p : PortIx) : Held × Option Int × Bool :=
  let x := s.ports[p]
  let t := s.now
  if s.psu.bind = .combsOff then (.hiz, none, true)
  else if s.bound && s.isDriving p then (if x.o.bound then (.hiz, none, true) else (.free, none, false))
  else if !s.takesActions p then (.free, none, false)
  else if s.bound then let (h, f) := safeHold x t; (h, f, true)
  else if (s.combFenced (combOf p) && !s.stuckPair p) || (!(s.combFenced (combOf p) && s.stuckPair p) && (x.owner.map s.chanFenced).getD false) then
    let (h, f) := safeHold x t; (h, f, false)
  else match s.ruleHolding p with
    | some r => let (h, f) := ruleHold x s.rules[r] t; (h, f, false)
    | none => (.free, none, false)

/-- Functions that a hold or an action stops at the pin: pulses, a running character, a transfer (Table 12-5, R127). -/
def Port.stopFn (x : Port) : Port :=
  { x with c := if x.md = mPulse then { x.c with left := 0, pwmRun := 0 } else { x.c with ssiFail := x.c.ssiFail || x.c.ssi.isSome }
           tx := if x.transmits then { x.tx with cur := none } else x.tx
           st := if x.md = mPulse ∨ x.transmits then { x.st with f0 := false } else x.st }

/-- The no-hole level of a reader's data lines (POL, R141). -/
def State.noHole (s : State) (p : PortIx) : Byte := if bit s.ports[localPort p 0].a.range 30 then 0xFF else 0

/-- A reader's lines at rest (Table 12-5, R141). -/
def State.readerRest (s : State) (p : PortIx) : State :=
  s.modComb (combOf p) fun c => { c with lines := s.noHole p, strobe := false, seq := .idle }

/-- What an action does at its pin: a value clamped as R74 states, with CLAMP set where it is (R84), a frozen level, or nothing driven. -/
def Port.act (x : Port) (t : Nat) (h : Held) : Port :=
  let y : Port := { x.stopFn with c := { x.stopFn.c with stopped := x.stopFn.c.stopped || h != .free } }
  match h with
  | .free => x
  | .value v =>
    let (c, cl) := if x.isAo then clampOut x v else (v, false)
    let z := y.aim t c
    { z with st := { z.st with clamp := z.st.clamp || cl } }
  | .level v => y.aim t v
  | .hiz => y.floatPin t

/-- An action takes the pin at this instant (R373, R374). A hold of the direction pin stops the pulses of its step port (R127). -/
def State.actOn (s : State) (p : PortIx) (h : Held) : State :=
  let x := s.ports[p]
  let s := s.modPort p fun x => x.act s.now h
  if h = .free then s
  else if x.md = mReader then s.readerRest p
  else if groleOf x = .dirMember then
    match s.leadOf p with
    | some q => s.modPort q fun y => y.stopFn
    | none => s
  else s

/-- The in-service calibration of a port that is held, or let go, counts its frames anew (Table 3-11). -/
def State.calRestart (s : State) (p : PortIx) : State :=
  if s.combs[combOf p].calPort = some (finOf 8 (lix p)) then s.modComb (combOf p) fun c => { c with calFrom := s.tick.frames + 1 } else s

/-- The hold of a pin is a rule's, of rank 3: no Bind-off and no fence outranks it (Table 1-3). -/
def State.ruleGoverns (s : State) (p : PortIx) : Bool :=
  !s.bound && !(s.combFenced (combOf p) && !s.stuckPair p) && !((s.ports[p].owner.map s.chanFenced).getD false)

/-- Recompute what holds a pin and apply it (R16, R17, R375, R379): when the last hold ends the pin stays as it is. -/
def State.rehold (s : State) (p : PortIx) : State :=
  let (h, f, b) := s.holdOf p
  let x := s.ports[p]
  let was := x.o.held
  let s := if h = was then s else (s.actOn p h).calRestart p
  s.modPort p fun x => { x with o := { x.o with held := h, frozen := f, bound := b, waits := x.o.waits || (h == .free && was != .free), upset := x.o.upset || h != .free || was != .free } }

def State.reholdComb (s : State) (c : CombIx) : State := s.each (portsOf c) fun p s => s.rehold p
def State.reholdAll (s : State) : State := s.each (allFin 128) fun p s => s.rehold p

/-- An ONESHOT action of rule r: taken at once, it stands where nothing holds the port; over the hold of a higher-numbered rule it takes the
pin for one cycle of the port clock, in which it fires, and the hold then applies its own action again (R373, R375). -/
def State.actOnce (s : State) (r : RuleIx) (p : PortIx) (h : Held) : State :=
  let x := s.ports[p].o
  if !s.takesActions p then s
  else if x.held = .free then s.actOn p h
  else if (s.holdOf p).1 = x.held ∧ !x.bound ∧ s.ruleGoverns p ∧ ((s.ruleHolding p).map fun q => decide (r.val < q.val)) = some true then
    (s.actOn p h).actOn p x.held
  else s

/-- The graft path drives a port at rank 4 (R151), clamped as R74 states. -/
def State.driveGraft (s : State) (p : PortIx) (v : Int) : State :=
  s.modPort p fun x =>
    let (c, cl) := if x.isAo then clampOut x v else (v, false)
    let x := if x.o.held = .free && !x.o.waits then x.aim s.now c else x
    { x with st := { x.st with clamp := x.st.clamp || cl } }

/-! ### The field supply at the outputs (R104) -/

/-- The outputs that depend on the field supply are off (R104). -/
def State.fsOffAt (s : State) (p : PortIx) : Bool :=
  let c := s.combs[combOf p]
  s.fsDependent p && (c.low || c.fsResume || c.fsOff)

/-- The output stages of a Comb go off or resume with the field supply (R104). -/
def State.fsSync (s : State) (c : CombIx) : State :=
  s.each (portsOf c) fun p s =>
    let off := s.fsOffAt p
    s.modPort p fun x =>
      if off = x.o.fs then x
      else if off then let y := x.stopFn.shutPin s.now; { y with o := { y.o with fs := true } }
      else ({ x with o := { x.o with fs := false } } : Port).resume s.now

/-! ### Conditions of the Reflex rules (R369, R370, R372) -/

/-- The digital level of a port (Table 12-3, DIG); none where the port has no such level (R370). -/
def State.digLevel (s : State) (p : PortIx) : Option Bool :=
  let x := s.ports[p]
  if (x.md == mDi || x.md == mDiff || x.md == mDo) && s.groupOk p then some x.c.line else none

/-- The trigger condition of a rule (R370, Table 12-3). -/
def State.trigTrue (s : State) (r : Rule) : Bool :=
  let p : PortIx := finOf 128 (fld r.trig 22 16)
  let x := s.ports[p]
  let inv := bit r.trig 27
  match fld r.trig 31 28 with
  | 1 => match s.digLevel p with
    | some b => b != inv
    | none => false
  | 2 => (x.md == mAiV || x.md == mAiI || x.isAo) && (r.above != inv)
  | 3 =>
    let lim := wrapI 48 ((r.thresh.toNat + r.threshHi.toNat * 2 ^ 32 : Nat) : Int)
    let lead := x.counts || (x.md == mPulse && x.opt 31 30 == 0) || (x.md == mRes && x.opt 31 30 == 0)
    lead && s.groupOk p && (if inv then decide (x.c.cnt ≤ lim) else decide (lim ≤ x.c.cnt))
  | 4 => s.rx.estop != inv
  | _ => false

/-- The second condition (R369): Q_INV inverts only a level that exists. -/
def State.qualTrue (s : State) (r : Rule) : Bool :=
  if !bit r.qual 31 then true
  else if bit r.qual 29 then s.rules[(finOf 512 (fld r.qual 24 16) : RuleIx)].holding != bit r.qual 30
  else match s.digLevel (finOf 128 (fld r.qual 24 16)) with
    | some b => b != bit r.qual 30
    | none => false

def State.condTrue (s : State) (r : Rule) : Bool := s.trigTrue r && s.qualTrue r

/-- The Combs of the ports that a rule names are ready (R372). -/
def State.ruleReady (s : State) (r : Rule) : Bool :=
  let k := fld r.trig 31 28
  let rdy (n : Nat) : Bool := s.combReady (combOf (finOf 128 n))
  (!(k == 1 || k == 2 || k == 3) || rdy (fld r.trig 22 16)) &&
    (fld r.act 31 28 == 0 || rdy (fld r.act 22 16)) &&
    (!(bit r.qual 31 && !bit r.qual 29) || rdy (fld r.qual 24 16))

/-- The rule is active (R372). -/
def State.ruleActive (s : State) (r : Rule) : Bool := r.en && s.rx.armed && s.ruleReady r

/-- A rule that has fired may fire again once its condition has been false, or once it becomes active anew (R369). -/
def State.settle (s : State) : State :=
  { s with rules := s.rules.map fun r => if r.spent && !(s.ruleActive r && s.condTrue r) then { r with spent := false } else r }

/-- The state a Reflex comparator starts in (R371): the quantity against LIMIT, free within the ±256 LSB of its thresholds. -/
def State.startComparator (s : State) (r : RuleIx) : State :=
  let x := s.rules[r]
  if fld x.trig 31 28 ≠ 2 then s
  else
    let q := s.ports[(finOf 128 (fld x.trig 22 16) : PortIx)].i.last
    let lim := sfld x.thresh 20
    if 256 ≤ q - lim then s.modRule r fun x => { x with above := true }
    else if q - lim < -256 then s.modRule r fun x => { x with above := false }
    else let (w, s) := s.draw; s.modRule r fun x => { x with above := bit w 0 }

/-- The comparators of the rules that have become active since `old` start (R371). -/
def State.startedSince (s old : State) : State :=
  s.each ((allFin 512).filter fun r => s.ruleActive s.rules[r] && !old.ruleActive old.rules[r]) fun r s => s.startComparator r

/-- The comparators of a port's rules start when the port enters an analogue mode (R371). -/
def State.startComparators (s : State) (p : PortIx) : State :=
  s.each ((allFin 512).filter fun r => s.rules[r].en && fld s.rules[r].trig 31 28 == 2 && fld s.rules[r].trig 22 16 == p.val)
    fun r s => s.startComparator r

/-! ### Port events reported to Propolis (R91, R112) -/

/-- A record of a port that is also reported to Propolis with the port as unit (R91, R112). -/
def State.portFault (s : State) (p : PortIx) (code : Nat) (data : Word) (ts : Nat) (cause : Nat) : State :=
  (s.postEv p code data ts).report 0x01 p.val cause 0 data

end Sys2Proof.Machine
end

