-- ==== Sys2Proof/Machine/Graft.lean ====
section
/-! DEFINITION. Graft pairs (chapter 05): regeneration and BLEND, the checks and transitions of a request, releasing, and the commands
PC_GRAFT to RELAY_RAIL_RETURN. -/

namespace Sys2Proof.Machine

/-- Run an update unless the module is without power (R440, log entry 14). -/
def live (s : State) (f : State → State) : Res := .next (if s.psu.bind = .off then s else f s)

/-- The same for a command that can change a Reflex condition (R369). -/
def liveR (s : State) (f : State → State) : Res := .next (if s.psu.bind = .off then s else (f s).settle)

/-! ### Regeneration (R151, R159, R160) -/

/-- Types with parallel arming (Table 5-1). -/
def gParallel (sig : Nat) : Bool := sig == 0 || sig == 2 || sig == 4

def State.gSigOf (s : State) (j : PairIx) : Nat := gSig (s.graftReg j)

/-- The measured value that regeneration copies now: the last conversion, RAW or the filtered line (R160). -/
def State.regenValue (s : State) (j : PairIx) : Int :=
  let m := s.ports[s.measPort j]
  let g := s.gSigOf j
  if g = 0 ∨ g = 1 ∨ g = 4 then m.i.last else if m.c.line then 1 else 0

/-- The mean frame period in LSB of the time base, times 256 (R36). -/
def meanLsb256 (w : Word) : Nat := (fld w 17 0 * 256 + fld w 25 18) * 16

/-- α at time t as a fraction (R159): numerator and denominator, clamped to 0 to 1. -/
def State.alphaAt (s : State) (j : PairIx) (t : Nat) : Nat × Nat :=
  let pr := s.pairs[j]
  let g := s.graftReg j
  let np := (fld g 31 12 + 1) * meanLsb256 s.tick.act
  let den := 32768 * np
  let a0 := pr.ramp.1 * np
  let d := (t - pr.ramp.2) * 256 * 32768
  if bit g 8 then (a0 - d, den) else (min den (a0 + d), den)

/-- α in units of 1/32,768 at time t. -/
def State.alphaUnits (s : State) (j : PairIx) (t : Nat) : Nat :=
  let (n, d) := s.alphaAt j t
  if d = 0 then 0 else n * 32768 / d

/-- S of R150 as the driving port's target: the committed value, or what its function puts out; 0 stands for an excitation that goes on and
1 for a line at mark. -/
def State.graftS (s : State) (j : PairIx) : Int :=
  let x := s.ports[s.drivPort j]
  match s.gSigOf j with
  | 4 => 0
  | 5 => 1
  | 3 => if x.opt 31 30 = 0 then x.c.m else if x.opt 31 30 = 2 then x.c.pwm else x.o.s
  | _ => x.o.s

/-- The output of BLEND with the measured value r, at time t (R159). -/
def State.blendOut (s : State) (j : PairIx) (r : Int) (t : Nat) : Int :=
  let (n, den) := s.alphaAt j t
  r + (if den = 0 then 0 else roundDiv ((s.graftS j - r) * n) den)

/-- What the graft path has the driving port drive, with the measured value r (Table 5-2); none where it leaves the port alone. -/
def State.graftOut (s : State) (j : PairIx) (r : Int) (t : Nat) : Option Int :=
  let pr := s.pairs[j]
  match pr.mode with
  | .observe => some r
  | .blend => some (s.blendOut j r t)
  | .hold => some pr.hold
  | .arming | .releasing | .bypass => if pr.regen then some r else none
  | .substitute => none

/-- The driving port takes what the graft path gives it. -/
def State.graftDrive (s : State) (j : PairIx) (r : Int) (t : Nat) : State :=
  let s := if s.pairs[j].mode = .blend then s.modPair j fun x => { x with alpha := s.alphaUnits j t } else s
  match s.graftOut j r t with
  | some v => s.driveGraft (s.drivPort j) v
  | none => s

/-- A regeneration update at time t (R159, R160): the driving port follows wherever the pair's state has it regenerate or blend. -/
def State.graftUpdate (s : State) (j : PairIx) (r : Int) (t : Nat) : State :=
  (s.modPair j fun x => { x with rVal := r }).graftDrive j r t

/-- PC_OUT_ACT of the driving port shows its target at this tick edge (R152). -/
def State.edgeShow (s : State) (p : PortIx) : State := s.modPort p fun x => { x with o := { x.o with edgeAct := x.o.act } }

/-- The driving port begins regeneration now: its own pulses and characters no longer reach the pin. -/
def State.startRegen (s : State) (j : PairIx) : State :=
  let s := (s.modPair j fun x => { x with regen := true }).modPort (s.drivPort j) fun x => x.stopFn
  s.driveGraft (s.drivPort j) (s.regenValue j)

/-- The driving port stops and goes high-impedance (R158), whatever held it: the contact has closed on the line. -/
def State.stopRegen (s : State) (j : PairIx) : State :=
  let s := s.modPair j fun x => { x with regen := false }
  s.modPort (s.drivPort j) fun x => x.stopFn.floatPin s.now

/-! ### Releasing (R158, R162) -/

/-- The pair enters RELEASING now: coil off, regeneration by type. In Bind-off the holds on the driving port end here (R164). A request that
waits for its tick edge goes on waiting (R154). -/
def State.releasePair (s : State) (j : PairIx) : State :=
  let pr := s.pairs[j]
  let d := s.drivPort j
  if pr.mode = .bypass ∨ pr.mode = .releasing ∨ !pr.link then s
  else
    let s := s.modPair j fun x =>
      { x with mode := .releasing, coil := false, since := s.now, reported := false, closeFail := false, alpha := 0 }
    let s := if s.bound then (s.rehold d).modPort d fun x => { x with o := { x.o with waits := false } } else s
    if gParallel (s.gSigOf j) || pr.auxOpen then s.startRegen j else s.stopRegen j

/-- The pair reaches BYPASS: the driving port is high-impedance, and no rank of Table 1-3 acts on it (R18, R150). -/
def State.toBypass (s : State) (j : PairIx) : State :=
  let s := s.modPair j fun x => { x with mode := .bypass, alpha := 0 }
  let s := s.rehold (s.drivPort j)
  if s.pairs[j].regen then s else s.stopRegen j

/-- Release every pair of a Comb, or every pair (R162, R164, R165). -/
def State.releaseComb (s : State) (c : CombIx) : State := s.each (allFin 4) fun i s => s.releasePair (finOf 64 (4 * c.val + i.val))
def State.releaseAll (s : State) : State := s.each (allFin 64) fun j s => s.releasePair j

/-! ### Requests (R154 to R156) -/

/-- Graft modes that a type allows (Table 5-1); mode 0 is BYPASS. -/
def gAllowed (sig m : Nat) : Bool :=
  m == 0 || (decide (m ≤ 4) && decide (sig ≤ 5) &&
    (if sig = 4 then decide (m ≤ 2) else if sig ≤ 1 then true else m != 3))

/-- The ports' modes and settings match the type (Table 5-1). -/
def gMatch (sig : Nat) (m d : Port) : Bool :=
  match sig with
  | 0 => ((m.md == mAiV && m.opt 1 0 == 0) || (m.md == mRes && m.opt 31 30 != 0 && m.opt 1 0 == 0)) && d.md == mAoV
  | 1 => m.md == mAiI && d.md == mAoI
  | 2 => m.md == mDi && d.md == mDo
  | 3 => m.md == mDiff && d.md == mPulse && d.opt 29 28 == 0
  | 4 => m.md == mAiV && m.opt 1 0 == 0 && d.md == mRes && d.opt 31 30 == 0
  | 5 => m.receives && d.transmits && m.md == d.md && (m.md == mLoop || m.opt 30 30 == d.opt 30 30)
  | _ => false

/-- Table 5-3: whether a stable state accepts a requested mode. -/
def gTable (st : GMode) (m : Nat) : Bool :=
  match st with
  | .bypass => m == 0 || m == 1
  | .observe => decide (m ≤ 4)
  | .substitute => m != 0 && decide (m ≤ 4)
  | .blend => m != 0 && decide (m ≤ 4)
  | .hold => m == 1 || m == 2 || m == 4
  | _ => false

/-- The cause for which a request is refused, the first of R155 (0: accepted). -/
def State.gRefusal (s : State) (j : PairIx) (v : Word) : Nat :=
  let pr := s.pairs[j]
  let m := gMode v
  let old := s.graftReg j
  if !pr.link then 4
  else if m ≠ 0 ∧ !s.psu.rail then 9
  else if pr.mode = .arming ∨ pr.mode = .releasing then 3
  else if m ≠ 0 ∧ pr.closeFail then 6
  else if (pr.mode ≠ .bypass ∧ (gSig v ≠ gSig old ∨ gDir v ≠ gDir old)) ∨ !gTable pr.mode m ∨ !gAllowed (gSig v) m then 1
  else if pr.mode = .bypass ∧ m = 1 then
    let s' := s.modPort (upPort j) fun x => { x with r := { x.r with graft := v } }
    let a := s'.ports[s'.measPort j]
    let b := s'.ports[s'.drivPort j]
    if !gMatch (gSig v) a b || a.st.calFail || b.st.calFail || !s'.groupOk (s'.measPort j) || !s'.groupOk (s'.drivPort j) then 2 else 0
  else 0

/-- The driving port comes to SUBSTITUTE or HOLD: from here the frame can qualify for diagnosis, if this is its tick edge (R89, R152). -/
def State.graftQual (s : State) (j : PairIx) : State :=
  let m := s.pairs[j].mode
  if m = .substitute ∨ m = .hold then s
  else s.modPort (s.drivPort j) fun x => { x with o := { x.o with upset := s.now != s.tick.edge || x.o.held != .free } }

/-- OBSERVE from a state in which the pair already drives: the output steps to r (Table 5-3). -/
def State.toObserve (s : State) (j : PairIx) : State := (s.modPair j fun x => { x with mode := .observe, alpha := 0 }).startRegen j

/-- SUBSTITUTE: the output steps to S (Table 5-3). -/
def State.toSubstitute (s : State) (j : PairIx) : State :=
  ((s.graftQual j).modPair j fun x => { x with mode := .substitute, alpha := 32768, regen := false }).driveGraft (s.drivPort j) (s.graftS j)

/-- The value that HOLD keeps: mark for SERIAL; on a line whose pulses or PWM periods stop, the level between them (Table 5-2). -/
def State.holdValue (s : State) (j : PairIx) : Int :=
  let x := s.ports[s.drivPort j]
  let g := s.gSigOf j
  if g = 5 then 1 else if g = 3 ∧ s.pairs[j].mode = .substitute ∧ x.opt 31 30 ≠ 1 then 0 else x.o.act

/-- Enter one of the stable states at the tick edge (Table 5-3). -/
def State.gEnter (s : State) (j : PairIx) (v : Word) : State :=
  let pr := s.pairs[j]
  let t := s.now
  let d := s.drivPort j
  match gMode v with
  | 0 => if pr.mode = .observe then s.releasePair j else s
  | 1 =>
    if pr.mode = .bypass then
      let s := s.modPair j fun x => { x with mode := .arming, coil := true, since := t, reported := false, regen := false, alpha := 0 }
      let s := s.rehold d
      if gParallel (gSig v) then s.startRegen j else s
    else if pr.mode = .observe then s
    else s.toObserve j
  | 2 => if pr.mode = .substitute then s else s.toSubstitute j
  | 3 =>
    let rev := bit v 8
    if (pr.mode = .observe ∧ rev) ∨ (pr.mode = .substitute ∧ !rev) then s
    else
      let a0 := if pr.mode = .observe then 0 else if pr.mode = .substitute then 32768 else s.alphaUnits j t
      s.modPair j fun x => { x with mode := .blend, alpha := a0, ramp := (a0, t), regen := true }
  | 4 =>
    if pr.mode = .hold then s
    else
      let hv := s.holdValue j
      let s := (s.graftQual j).modPair j fun x =>
        { x with mode := .hold, regen := false, hold := hv, alpha := if pr.mode = .blend then s.alphaUnits j t else x.alpha }
      (s.modPort d fun x => x.stopFn).driveGraft d hv
  | _ => s

/-- A request at its tick edge: refused with its first cause, or applied as a whole (R154 to R156). -/
def State.gRequest (s : State) (j : PairIx) (v : Word) : State :=
  let c := s.gRefusal j v
  if c ≠ 0 then s.modPair j fun x => { x with err := c }
  else
    -- a new ramp starts from the α that the old ramp has reached
    let a := if s.pairs[j].mode = .blend then s.alphaUnits j s.now else s.pairs[j].alpha
    let s := s.modPair j fun x => { x with alpha := a, ramp := if x.mode = .blend then (a, s.now) else x.ramp }
    let s := s.modPort (upPort j) fun x => { x with r := { x.r with graft := v } }
    (s.gEnter j v).edgeShow (s.drivPort j)

/-- A report with the pair as unit (R157, R162, R165). -/
def State.pairReport (s : State) (j : PairIx) (cause : Nat) : State := s.report 0x03 (2 * j.val) cause 0 0

/-- A write of PC_GRAFT (R71, R149, R154). -/
def State.wrGraft (s : State) (p : PortIx) (v : Word) : State :=
  if !s.combReady (combOf p) || p.val % 2 == 1 then s
  else if 5 ≤ gMode v ∨ 6 ≤ gSig v then s.modPort p fun x => { x with st := { x.st with cfgRej := true } }
  else s.modPair (pairOf p) fun x => { x with req := some (v &&& 0xFFFFF17F, s.tick.frames) }

/-! ### Commands -/

/-- PC_GRAFT (R154). -/
def execPcGraft (_a : Agent) (p : PortIx) (v : Word) (s : State) : Res := live s fun s => s.wrGraft p v

/-- GRAFT_REQUEST: the pending request at the first tick edge after its write (R154 to R156). None takes effect in Bind-off or a restart, which
have de-energised every coil (R164, R503; log entry 89). -/
def execGraftRequest (j : PairIx) (s : State) : Res := live s fun s =>
  match s.pairs[j].req with
  | some (v, n) => if n < s.tick.frames ∧ !s.bound then (s.modPair j fun x => { x with req := none }).gRequest j v else s
  | none => s

/-- AUX_CONTACT_CHANGE: the auxiliary contact reports (R157, R158). -/
def execAuxContactChange (j : PairIx) (isOpen : Bool) (s : State) : Res := live s fun s =>
  let pr := s.pairs[j]
  let s := s.modPair j fun x => { x with auxOpen := isOpen, reported := x.reported || (x.mode == .arming && isOpen) }
  if (pr.mode = .arming ∨ pr.mode = .releasing) ∧ !gParallel (s.gSigOf j) then (if isOpen then s.startRegen j else s.stopRegen j) else s

/-- ARMING_COMPLETE: the first tick edge after the contact is reported open (R157). -/
def execArmingComplete (j : PairIx) (s : State) : Res := live s fun s =>
  let pr := s.pairs[j]
  if pr.mode = .arming ∧ pr.reported then s.modPair j fun x => { x with mode := .observe, alpha := 0 } else s

/-- RLY_OPEN_FAIL: the contact is not reported open by E0 + 8 ms (R157). -/
def execRlyOpenFail (j : PairIx) (s : State) : Res := live s fun s =>
  let pr := s.pairs[j]
  if pr.mode = .arming ∧ !pr.reported then
    ((s.modPair j fun x => { x with coil := false, err := 5, regen := false }).toBypass j).pairReport j 0x90
  else s

/-- CONTACT_REPORTED_CLOSED: the contact has been reported closed for 500 µs (R158). -/
def execContactReportedClosed (j : PairIx) (s : State) : Res := live s fun s =>
  let pr := s.pairs[j]
  if pr.mode = .releasing ∧ !pr.auxOpen then s.modPair j fun x => { x with reported := true } else s

/-- REGENERATION_END: 50 µs after the contact is reported closed, a type with parallel arming goes high-impedance (R158). -/
def execRegenerationEnd (j : PairIx) (s : State) : Res := live s fun s =>
  let pr := s.pairs[j]
  if pr.regen ∧ pr.reported ∧ (pr.mode = .releasing ∨ pr.mode = .bypass) then s.stopRegen j else s

/-- RELEASING_COMPLETE: the first tick edge after the contact is reported closed (R158, R162). -/
def execReleasingComplete (j : PairIx) (s : State) : Res := live s fun s =>
  let pr := s.pairs[j]
  if pr.mode = .releasing ∧ pr.reported then
    let s := if gParallel (s.gSigOf j) then s else s.stopRegen j
    let s := (s.modPair j fun x => { x with warmWait := false }).toBypass j
    if pr.warmWait then
      -- the warm reset's change of MODE begins now
      s.each [upPort j, dnPort j] fun p s => s.modPort p fun x => { x with a := { x.a with wrote := s.tick.frames } }
    else s
  else s

/-- RLY_CLOSE_FAIL: the contact is not reported closed within 10 ms of the start of RELEASING (R158, R165). -/
def execRlyCloseFail (j : PairIx) (s : State) : Res := live s fun s =>
  let pr := s.pairs[j]
  if pr.mode = .releasing ∧ !pr.reported ∧ s.psu.bind = .none then
    let s := s.modPair j fun x => { x with mode := .observe, err := 6, closeFail := true, alpha := 0 }
    ((s.rehold (s.drivPort j)).startRegen j).pairReport j 0x91
  else s

/-- AUX_DISAGREE: the contact has disagreed with the coil for 1 ms outside ARMING and RELEASING (R162). -/
def execAuxDisagree (j : PairIx) (s : State) : Res := live s fun s =>
  let pr := s.pairs[j]
  if pr.auxOpen ≠ pr.coil ∧ pr.mode ≠ .arming ∧ pr.mode ≠ .releasing ∧ pr.mode ≠ .bypass ∧ !pr.closeFail then
    ((s.releasePair j).modPair j fun x => { x with err := 7 }).pairReport j 0x92
  else s

/-- BLEND_END: the first tick edge at which α has reached its end (R159). -/
def execBlendEnd (j : PairIx) (s : State) : Res := live s fun s =>
  let pr := s.pairs[j]
  let (n, den) := s.alphaAt j s.now
  let d := s.drivPort j
  if pr.mode = .blend then
    if bit (s.graftReg j) 8 then
      (if n = 0 then (s.toObserve j).edgeShow d else s)
    else (if n = den then (s.toSubstitute j).edgeShow d else s)
  else s

/-- The coils of the drive enables fall; each that was on posts DE_OPEN (R383, R384). -/
def State.openDe (s : State) (mask : BitVec 4) : State :=
  let hit := s.rx.coil &&& mask
  if hit = 0 then s
  else ({ s with rx := { s.rx with coil := s.rx.coil &&& ~~~mask, aux := s.rx.aux &&& ~~~hit } } : State).postRx 0xFFFF 0x06 0xFF 0xFF s.now

/-- RELAY_RAIL: the 12 V relay rail is lost alone (R165, R383). -/
def execRelayRail (s : State) : Res := live s fun s =>
  if !s.psu.rail then s
  else
    let s := { s with psu := { s.psu with rail := false } }
    ((s.releaseAll).openDe 0xF).report 0x19 0 0xB0 0 0

/-- RELAY_RAIL_RETURN: the rail is back (R165). -/
def execRelayRailReturn (s : State) : Res := live s fun s => { s with psu := { s.psu with rail := true } }

end Sys2Proof.Machine
end

