-- ==== Sys2Proof/Machine/Ports.lean ====
section
/-! DEFINITION. Port Cells (chapter 03): writes of the port registers, the changeover, conversions, calibration, thermal shutdown and
learning, and what a tick edge and INPUT_READY do at one port. -/

namespace Sys2Proof.Machine

/-! ### Register writes (R67 to R71, R95, R105, R121, R153, R513, R515) -/

def State.portRej (s : State) (p : PortIx) : State := s.modPort p fun x => { x with st := { x.st with cfgRej := true } }

/-- A write that R153 ignores: the pair is not in BYPASS. -/
def State.modeLocked (s : State) (p : PortIx) : Bool := s.linked p && s.pairs[pairOf p].mode != .bypass

def State.modeLockErr (s : State) (p : PortIx) : State := s.modPair (pairOf p) fun x => { x with err := 8 }

/-- PC_MODE (R67, R68, R70, R95). -/
def State.wrMode (s : State) (p : PortIx) (v : Word) : State :=
  if !s.combReady (combOf p) || s.ports[p].st.cellFail then s
  else if !modeOk (fld v 5 0) || fld v 17 16 == 3 || fld v 13 12 == 3 then s.portRej p
  else if s.modeLocked p then s.modeLockErr p
  else s.modPort p fun x => { x with r := { x.r with mode := v &&& 0x0003B03F }, a := { x.a with wrote := s.tick.frames } }

/-- PC_RANGE (R70, R105). -/
def State.wrRange (s : State) (p : PortIx) (v : Word) : State :=
  let m := fld s.ports[p].r.mode 5 0
  if !s.combReady (combOf p) then s
  else if !funcOk m (lix p) v || !gainOk m v then s.portRej p
  else if s.modeLocked p then s.modeLockErr p
  else s.modPort p fun x => { x with r := { x.r with range := rangeMask m (lix p) v }, a := { x.a with wrote := s.tick.frames } }

/-- PC_LIMITS (R70, Table 3-22). -/
def State.wrLimits (s : State) (p : PortIx) (v : Word) : State :=
  if !s.combReady (combOf p) then s
  else s.modPort p fun x => { x with r := { x.r with limits := v &&& 0xFFF0FF3F }, a := { x.a with wrote := s.tick.frames } }

/-- PC_LOAD_REF, with LEARN (R70, R92). -/
def State.wrLoadRef (s : State) (p : PortIx) (v : Word) : State :=
  if !s.combReady (combOf p) then s
  else s.modPort p fun x =>
    { x with r := { x.r with loadRef := (v &&& 0xFFFF00FF) ||| ((v ||| x.r.loadRef) &&& 0x100) }, a := { x.a with wrote := s.tick.frames } }

/-- PC_OUT_SET: the value waits for the next STAGE deadline (R43); a member of a counting pair ignores it (R121). -/
def State.wrOutSet (s : State) (p : PortIx) (src : Option CoreIx) (v : Word) : State :=
  let x := s.ports[p]
  if !s.combReady (combOf p) || (x.md == mDiff && x.opt 31 28 == 7) then s
  else s.modPort p fun x => { x with r := { x.r with outSet := v }, o := { x.o with stg := x.o.stg ++ [(src, v)] } }

/-- PC_STAT: the W1C bits (Table 3-24). -/
def State.wrPcStat (s : State) (p : PortIx) (v : Word) : State :=
  if !s.combReady (combOf p) then s
  else s.modPort p fun x =>
    { x with st := { x.st with cfgRej := x.st.cfgRej && !bit v 22, ovf := x.st.ovf && !bit v 21, calFail := x.st.calFail && !bit v 12
                               clamp := x.st.clamp && !bit v 8, ovrange := x.st.ovrange && !bit v 7, short := x.st.short && !bit v 5
                               opn := x.st.opn && !bit v 4, drift := x.st.drift && !bit v 3, dev := x.st.dev && !bit v 2 } }

/-- PC_SAFE (R377, R378, R515). -/
def State.wrSafe (s : State) (p : PortIx) (v : Word) : State :=
  if !s.combReady (combOf p) then s
  else if s.ports[p].safeLock then { s with rx := { s.rx with lockRej := true } }
  else if fld v 29 28 = 3 then s.portRej p
  else (s.modPort p fun x => { x with r := { x.r with safe := v &&& 0xBFFFFFFF } }).rehold p

/-- PC_EVQ_MARK (R396 to R401): REWIND and REWIND_OLDEST before SET (R391). -/
def State.wrEvqMark (s : State) (p : PortIx) (v : Word) : State :=
  if !s.combReady (combOf p) then s
  else if 1 < (if bit v 31 then 1 else 0) + (if bit v 30 then 1 else 0) + (if bit v 29 then 1 else 0) then s.portRej p
  else s.modPort p fun x =>
    let e := { x.ev with rwFail := x.ev.rwFail && !bit v 10, markLost := x.ev.markLost && !bit v 9 }
    let e := if bit v 30 then e.rewind else e
    let e := if bit v 29 then e.rewindOldest else e
    { x with ev := if bit v 31 then e.setMark else e }

/-- PC_EVQ_STAT.FLUSH (R394, R400). -/
def State.wrEvqStat (s : State) (p : PortIx) (v : Word) : State :=
  if s.combReady (combOf p) && bit v 31 then s.modPort p fun x => { x with ev := x.ev.flush } else s

/-- PC_TXQ_STAT: FLUSH and DROP (R138, R394). -/
def State.wrTxqStat (s : State) (p : PortIx) (v : Word) : State :=
  if !s.combReady (combOf p) then s
  else s.modPort p fun x => { x with tx := { x.tx with q := if bit v 31 then [] else x.tx.q, drop := x.tx.drop && !bit v 16 } }

/-- The port takes characters: it transmits, or is a reader at local index 0 (R138). -/
def takesChars (p : PortIx) (x : Port) : Bool := x.transmits || (x.md == mReader && lix p == 0)

/-- A character joins the transmit queue (R138). -/
def State.pushChar (s : State) (p : PortIx) (c : BitVec 9) : State :=
  if !takesChars p s.ports[p] then s
  else s.modPort p fun x =>
    let c := if x.md = mReader then c &&& 0x0FF else c
    if 256 ≤ x.tx.q.length then { x with tx := { x.tx with drop := true } } else { x with tx := { x.tx with q := x.tx.q ++ [c] } }

/-- PC_TXQ_PUSH (R138). -/
def State.wrTxqPush (s : State) (p : PortIx) (v : Word) : State :=
  if !s.combReady (combOf p) then s
  else (s.modPort p fun x => { x with r := { x.r with txPush := v &&& 0x1FF } }).pushChar p (v.truncate 9)

/-- PC_SCOUT_TOL and PC_SCOUT_PRED (Tables 9-10, 9-11). -/
def State.wrScoutTol (s : State) (p : PortIx) (v : Word) : State :=
  if !s.combReady (combOf p) then s
  else if 3 < fld v 31 28 then s.portRej p
  else s.modPort p fun x => { x with r := { x.r with scoutTol := v &&& 0xF0FFFFFF }, a := { x.a with wrote := s.tick.frames } }

def State.wrScoutPred (s : State) (p : PortIx) (v : Word) : State :=
  if !s.combReady (combOf p) then s else s.modPort p fun x => { x with r := { x.r with scoutPred := v } }

/-- CB_CAL_REQ (R98): a bit of a port that is being calibrated has no effect; that of an IDLE port clears at once. In every other mode the ADC
converts (R75). -/
def State.wrCalReq (s : State) (c : CombIx) (v : Word) : State :=
  if !s.combReady c then s
  else s.modComb c fun x =>
    let ok : BitVec 8 := BitVec.ofNat 8 ((portsOf c).foldl (fun n p =>
      if s.ports[p].modeNow == mIdle then n else n + 2 ^ lix p) 0)
    { x with calReq := x.calReq ||| (v.truncate 8 &&& ok) }

/-- CB_FS_STAT: OVC is W1C (Table 4-15). -/
def State.wrFsStat (s : State) (c : CombIx) (v : Word) : State :=
  if s.combReady c then s.modComb c fun x => { x with ovc := x.ovc && !bit v 2 } else s

/-! ### Resolver tracking (R131, R132) -/

/-- The position with a new angle: turns carried by the nearest way round. -/
def turnTo (pos angle : Int) : Int := pos + wrapI 24 (angle - pos)

/-- A position counter moves to x, counting a wrap (R119, R404). -/
def Port.setCnt (x : Port) (v : Int) : Port :=
  let w := wrapI 48 v
  { x with c := { x.c with cnt := w, wraps := if w = v then x.c.wraps else satInc16 x.c.wraps } }

/-- Saturation of a wrap count (R402, R403). -/
def State.wrapSat (s : State) (p : PortIx) (old : Nat) : State :=
  if s.ports[p].c.wraps = 0xFFFF ∧ old < 0xFFFF then
    (s.modPort p fun x => { x with st := { x.st with ovf := true } }).report 0x01 p.val 0xA1 0 (toW (portAddr p 0x34))
  else s

/-- The angle of a demodulated pair, in units of 2^-24 turn (R131). -/
def pairAngle (sin cos : Int) : Int := angleFloor cos sin / 2 ^ 8 % 2 ^ 24

/-- The port's demodulated amplitude; the sample of the frame's first conversion is the one PC_IN_VAL shows (R131). -/
def Port.setAmp (x : Port) (first : Bool) (v : Int) : Port :=
  { x with c := { x.c with amp := v }, i := { x.i with sample := if first then v else x.i.sample } }

/-- One update of the tracking loop at the lead p (R131, R132). The demodulated pair, the loop error and the velocity are free values; the angle is
that of the pair, less the loop error (log entry 42). -/
def State.resolverTrack (s : State) (p : PortIx) (first : Bool) (t : Nat) : State :=
  match s.windings p with
  | ps :: pc :: _ =>
    let (a, s) := s.draw
    let (b, s) := s.draw
    let s := (s.modPort ps fun x => x.setAmp first (sfld a 20)).modPort pc fun x => x.setAmp first (sfld b 20)
    if !s.ports[p].a.runs || s.ports[p].c.loss then s
    else
      let (v, s) := s.draw
      let (e, s) := s.draw
      let err := sfld e 24
      let old := s.ports[p].c.wraps
      let was := s.ports[p].c.state
      let big := decide (2 ^ 18 < err.natAbs)
      let s := s.modPort p fun x =>
        let x := x.setCnt (turnTo x.c.cnt ((pairAngle (sfld a 20) (sfld b 20) - err) % 2 ^ 24))
        { x with c := { x.c with vel := clampI (-524032) 524032 v.toInt, state := big } }
      let s := s.wrapSat p old
      if big && !was then s.portFault p 0x21 (toW (s.ports[p].c.cnt % 2 ^ 24).toNat) t 0x21 else s
  | _ => s

/-! ### ADC conversions (R73, R75, R160) -/

/-- The types whose regeneration follows the conversions of the measuring port (R160). -/
def gConverts (sig : Nat) : Bool := sig == 0 || sig == 1 || sig == 4

/-- Conversion k of the frame at port p, begun at t: its code, OVRANGE, the tick sample, and what the mode makes of it (R73, R75, R117, R131). -/
def State.conversion (s : State) (p : PortIx) (k : Nat) (raw : Int) (t : Nat) : State :=
  let x := s.ports[p]
  let (lo, hi) := codeRange x
  let c0 := adcCode x.calSet raw
  let c := clampI lo hi c0
  let sat := c != c0
  let post := sat && !x.st.ovrange && !x.i.ovrAtEdge && !x.i.conv.any (·.2)
  let on := decide (153600 < c)
  let s := s.modPort p fun x =>
    { x with i := { x.i with conv := (c, sat) :: x.i.conv, last := c
                             -- a DO port shows its terminal against 12 V (R117), a DI port its STATE and RAW (R114)
                             sample := if k ≠ 0 ∨ x.md = mDi then x.i.sample else if x.md = mDo then (if on then 1 else 0) else c
                             sampleRaw := if k = 0 ∧ x.md = mDo then on else x.i.sampleRaw }
             st := { x.st with ovrange := x.st.ovrange || sat, f0 := if k = 0 ∧ x.md = mDo then on else x.st.f0 } }
  let s := if post then s.portFault p 0x07 (toWi c) t 0x07 else s
  if x.md = mRes ∧ x.opt 31 30 = 2 then (match s.leadOf p with | some q => s.resolverTrack q (k == 0) t | none => s) else s

/-- ADC_CONVERSION: the raw 20-bit code of the next conversion of the frame at port p (R75). Conversion 0 is of the sample taken at the tick edge.
A pair that a restart has released goes on regenerating while its Comb is not ready (R158, R503). -/
def State.convert (s : State) (p : PortIx) (raw : Int) : State :=
  let x := s.ports[p]
  let k := x.i.conv.length
  let j := pairOf p
  let regen := s.isMeasuring p && gConverts (s.gSigOf j)
  if !s.combReady (combOf p) then
    if regen && s.cast.restarting then
      let (lo, hi) := codeRange x
      let c := clampI lo hi (adcCode x.calSet raw)
      (s.modPort p fun x => { x with i := { x.i with last := c } }).graftUpdate j c s.now
    else s
  else if x.md == mIdle || x.a.change.isSome || decide (s.tick.len ≤ 125 * k + 124) || !s.glb.tick then s
  else
    let t := s.tick.at (2000 * k)
    let s := s.conversion p k (if k = 0 then x.i.tickRaw.getD raw else raw) t
    if regen then s.graftUpdate j s.ports[p].i.last t else s

/-! ### Diagnostics (R89 to R91) -/

/-- One more frame or edge of a condition: established after `need` in a row. Answers whether it becomes established now. -/
def Diag.step (d : Diag) (meets : Bool) (need : Nat) : Diag × Bool :=
  if meets then
    let n := if d.n < need then d.n + 1 else d.n
    if need ≤ n && !d.est then (⟨n, true⟩, true) else (⟨n, d.est⟩, false)
  else (⟨0, false⟩, false)

/-- R in units of 4 Ω, as a fraction with positive denominator, from the frame means (R90). -/
def loadR (x : Port) : Int × Nat :=
  let i := x.i.loadVal.toInt
  let v := x.i.rbVal.toInt
  let n := if x.md = mAoV then v * 625 else i * 16000
  let d := if x.md = mAoV then 128 * i else 3 * v
  if d < 0 then (-n, d.natAbs) else (n, d.natAbs)

/-- |I| is at least 100 µA (R90, R92). -/
def loadSeen (x : Port) : Bool :=
  if x.md = mAoV then decide (100 ≤ x.i.loadVal.toInt.natAbs) else decide (6400 ≤ 3 * x.i.rbVal.toInt.natAbs)

def driftOut (x : Port) : Bool :=
  let (n, d) := loadR x
  let ref := (fld x.a.loadRef 31 16 : Int)
  loadSeen x && decide ((fld x.a.loadRef 7 0 : Int) * ref * d < (n - ref * d).natAbs * 200)

/-- The analogue and digital diagnostics that INPUT_READY judges over the frame just ended (R89 to R91, R116, R117). While its enable is off a
condition's count stands still (log entry 90); R goes into a DRIFT record as its magnitude to the nearest unit (log entry 91); a DO port was on
where its switch was on at the edge that ended the frame (log entry 92). -/
def State.diagnose (s : State) (p : PortIx) (doCurrent : Int) : State :=
  let x := s.ports[p]
  if !x.i.endedQual then s
  else
    let ts := x.i.endedEdge
    let v := x.i.rbVal.toInt
    let lim := x.a.limits
    let openMeets := if x.md = mAoV then decide (51200 ≤ v.natAbs) && decide (x.i.loadVal.toInt.natAbs < 10)
                     else x.md == mDo && x.i.endedOn && decide (doCurrent < 2000)
    let openOn := bit lim 5 && (x.md == mAoV || x.md == mDo)
    let (dO, nO) := if openOn then x.st.dOpen.step openMeets 4 else (x.st.dOpen, false)
    let driftOn := x.isAo && fld x.a.loadRef 7 0 != 0 && fld x.a.loadRef 31 16 != 0 && !bit x.r.loadRef 8
    let (dD, nD) := if driftOn then x.st.dDrift.step (driftOut x) 64 else (x.st.dDrift, false)
    let devOn := x.isAo && fld lim 31 24 != 0
    let need := if fld lim 23 20 = 0 then 16 else fld lim 23 20
    let (dV, nV) := if devOn then x.st.dDev.step (decide (fld lim 31 24 * 256 < (v - x.i.endedAct).natAbs)) need else (x.st.dDev, false)
    let volt := (s.combs[combOf p].volt.toNat : Int)
    let misOn := x.md == mDo && bit x.a.range 8
    let mis := if x.i.endedOn then decide (v * 625 < (volt * 10000 - 3000000) * 8) else decide (64000 < v)
    let (dM, nM) := if misOn then x.st.dMism.step mis 2 else (x.st.dMism, false)
    -- learning, over the frames since the edge at which it began (R92)
    let lrn := match x.st.learn with
      | some (n, sum) => if n < 256 ∧ x.isAo ∧ loadSeen x ∧ x.st.learnAt < s.tick.frames then
          let (a, b) := loadR x
          some (n + 1, sum + (a.natAbs * 2 ^ 32) / b) else some (n, sum)
      | none => none
    let s := s.modPort p fun x =>
      { x with st := { x.st with dOpen := dO, dDrift := dD, dDev := dV, dMism := dM, learn := lrn, opn := x.st.opn || nO
                                 drift := x.st.drift || nD, dev := x.st.dev || nV, f1 := if x.md = mDo then dM.est else x.st.f1 } }
    let s := if nO then s.portFault p 0x01 (if x.isAo then x.i.loadVal else 0) ts 0x01 else s
    let s := if nD then
        let (n, d) := loadR x
        s.portFault p 0x03 (toW (Nat.min 0xFFFFFFFF (roundDiv n d).natAbs)) ts 0x03
      else s
    let s := if nV then s.portFault p 0x04 (toWi (v - x.i.endedAct)) ts 0x04 else s
    if nM then s.portFault p 0x18 (toWi (x.i.endedAct % 2)) ts 0x18 else s

/-! ### Capture blocks (R78, R308) -/

/-- One capture block (Table 3-4). -/
def capBlock (p : PortIx) (edge : Nat) (held out_ last : Bool) (first : Nat) (xs : List (Int × Bool)) : CapBlock :=
  leBytes 8 edge ++ leBytes 2 p.val ++ leBytes 2 xs.length ++
    leBytes 1 (putb (xs.any (·.2)) 0 + putb held 1 + putb out_ 2 + putb last 3) ++ leBytes 2 first ++ leBytes 1 0 ++
    (xs.map fun (c, sat) => leBytes 4 ((c % 2 ^ 20).toNat * 4096 + putb sat 11)).flatten

/-- The blocks of a frame's conversions, at most 1,020 samples each (R78); n bounds the blocks. -/
def capBlocks (p : PortIx) (edge : Nat) (held out_ : Bool) : Nat → Nat → List (Int × Bool) → List CapBlock
  | 0, _, _ => []
  | n + 1, first, xs =>
    if xs.isEmpty then []
    else
      let rest := xs.drop 1020
      capBlock p edge held out_ rest.isEmpty first (xs.take 1020) :: capBlocks p edge held out_ n (first + 1020) rest

/-- The blocks of a frame become available, or are discarded and counted (R308). -/
def State.capAvail (s : State) (p : PortIx) (bs : List CapBlock) : State :=
  if bs.isEmpty then s
  else if s.ports[p].i.cap.length < 2 then s.modPort p fun x => { x with i := { x.i with cap := x.i.cap ++ [bs] } }
  else
    let old := s.ports[p].i.capLost
    let new := Nat.min 0xFFFFFFFF (old + bs.length)
    let s := s.modPort p fun x => { x with i := { x.i with capLost := new }, st := { x.st with ovf := x.st.ovf || (new == 0xFFFFFFFF && old != new) } }
    if new = 0xFFFFFFFF ∧ old ≠ new then s.report 0x01 p.val 0xA1 0 (toW (portAddr p 0x78)) else s

/-! ### INPUT_READY at one port (R76 to R78, R107, R114, R117, R120, R126, R131, R135) -/

/-- The mean of the conversions of the frame just ended (R77). -/
def frameMean (x : Port) : Int := if x.i.ended.isEmpty then 0 else roundDiv ((x.i.ended.map (·.1)).sum) x.i.ended.length

/-- The values of PC_IN_VAL and PC_RB_VAL that the mode gives at INPUT_READY. -/
def State.inputValues (s : State) (p : PortIx) : Int × Int :=
  let x := s.ports[p]
  let m := x.md
  if m = mDi then ((if x.i.sample = 1 then 1 else 0) + (if x.i.sampleRaw then 2 else 0), frameMean x)
  else if m = mDiff then (if x.counts then (x.c.capCnt, x.c.net) else ((if x.i.sampleRaw then 1 else 0), frameMean x))
  else if m = mPulse ∧ x.opt 31 30 = 0 then (x.c.capCnt, x.c.net)
  else if m = mRes ∧ x.opt 31 30 = 0 then (x.c.capCnt % 2 ^ 24, x.c.net)
  else if m = mSsi ∧ bit x.a.range 31 then (match x.c.ssiRes with | some (v, _) => v | none => x.i.inVal.toInt, frameMean x)
  else (x.i.sample, frameMean x)

/-- What INPUT_READY makes valid at a port. CAP as it stands here decides what is written, also of the frame that has ended (R78; log entry 93). -/
def State.portReady (s : State) (p : PortIx) (load : Int) : State :=
  let x := s.ports[p]
  if !s.combReady (combOf p) || x.md == mIdle || x.a.change.isSome then
    s.modPort p fun x => { x with i := { x.i with inVal := 0, rbVal := 0, loadVal := 0 }, st := { x.st with rbValid := false } }
  else
    let first := decide (s.tick.frames ≤ x.a.since)
    let (iv, rv) := s.inputValues p
    let lead := x.counts || (x.md == mPulse && x.opt 31 30 == 0) || (x.md == mRes && x.opt 31 30 == 0)
    let s := s.modPort p fun x =>
      let x := { x with i := { x.i with inVal := toWi iv, rbVal := if first then 0 else toWi rv
                                        loadVal := if x.isAo && !first then toWi (clampI (-32768) 32767 load) else 0 }
                        st := { x.st with rbValid := !first } }
      if lead then { x with c := { x.c with regCnt := x.c.capCnt, regWraps := x.c.capWraps, regTs := x.c.capTs } }
      else if x.md = mDiff then { x with c := { x.c with regCnt := 0, regWraps := 0, regTs := 0 } }
      else match x.c.ssiRes with
        | some (v, ts) => { x with c := { x.c with regCnt := v, regWraps := 0, regTs := ts, ssiRes := none } }
        | none => x
    let s := if first then s else s.diagnose p load
    let outF := x.outMode
    match fld x.a.mode 17 16 with
    | 1 => s.capAvail p [capBlock p s.tick.edge x.i.heldEdge outF true 0 ((x.i.conv.reverse).take 1)]
    | 2 => if first then s else s.capAvail p (capBlocks p x.i.endedEdge x.i.endedHeld outF 4 0 x.i.ended)
    | _ => s

/-! ### A tick edge at one port (R14, R15, R74, R82, R83, R89 to R91, R107, R120) -/

/-- Close the frame just ended at a port and take its tick sample. `prev` is the edge that opened that frame. -/
def State.portEdgeClose (s : State) (p : PortIx) (prev : Nat) (o : Option EdgeObs) : State :=
  let x := s.ports[p]
  let t := s.now
  let graftOk := !s.isDriving p || s.pairs[pairOf p].mode == .substitute || s.pairs[pairOf p].mode == .hold
  let firstF := decide (s.tick.frames ≤ x.a.since + 1)
  let il := match s.ilimUa p, o with
    | some l, some e => x.o.driving && decide (l < e.demand)
    | _, _ => false
  let co := (o.map (·.comply)).getD false
  let inBypass := s.isDriving p && s.pairs[pairOf p].mode == .bypass
  let shortOn := (x.md == mAoV || x.md == mDo || s.fsDependent p) && !inBypass
  let (dS, nS) := if shortOn then x.st.dShort.step il 4 else (x.st.dShort, false)
  let oiOn := x.md == mAoI && bit x.a.limits 5 && graftOk
  let (dO, nO) := if oiOn then x.st.dOpen.step (co && decide (10667 ≤ x.o.act)) 4 else (x.st.dOpen, false)
  let act := x.o.act
  let moving := x.isAo && x.o.driving && x.levelAtT t != x.o.act
  let s := s.modPort p fun x =>
    { x with
      i := { x.i with ended := x.i.conv.reverse, conv := [], endedEdge := prev, endedHeld := x.i.heldEdge, heldEdge := x.o.held != .free
                      endedQual := x.o.steady && !x.o.upset && graftOk && !firstF && x.a.change.isNone && x.md != 0xFF
                      endedAct := act, endedOn := x.o.driving && act == 1, tickRaw := o.map (·.sample), ovrAtEdge := x.st.ovrange || x.i.conv.any (·.2)
                      sample := if x.md = mDi then (if x.c.state then 1 else 0) else x.i.sample
                      sampleRaw := if x.md = mDi ∨ x.md = mDiff then x.c.line else x.i.sampleRaw }
      o := { x.o with steady := true, upset := x.o.held != .free || !graftOk || moving, waits := false }
      c := { x.c with net := if x.md = mRes then x.c.vel else if x.md = mPulse then x.c.emitted else x.c.cnt - x.c.capCnt
                      capCnt := x.c.cnt, capWraps := x.c.wraps, capTs := x.c.edgeTs, emitted := 0, qerr := false }
      st := { x.st with ilim := il, comply := co && x.md == mAoI
                        slew := moving, dShort := dS, dOpen := dO
                        short := x.st.short || nS, opn := x.st.opn || nO
                        f0 := if x.md = mDi then x.c.state else if x.md = mDiff then x.c.line else x.st.f0
                        f1 := if x.md = mDi then x.c.line else x.st.f1
                        f2 := if x.md = mDiff ∨ x.md = mSsi then false else x.st.f2 } }
  let s := if nS then s.portFault p 0x02 (toWi act) t 0x02 else s
  if nO then s.portFault p 0x01 x.i.loadVal t 0x01 else s

/-- The tick commit reaches the pin: it is no graft port, or the driving port of a pair in SUBSTITUTE (R144, R151). -/
def State.pinOwn (s : State) (p : PortIx) : Bool := !s.linked p || (s.isDriving p && s.pairs[pairOf p].mode == .substitute)

/-- The direction port of a step port. -/
def State.dirPort (s : State) (p : PortIx) : Option PortIx := (s.windings p).head?

/-- A direction output turns (R126): at the pin, or only as the function's output on a graft path (R150). -/
def State.turnDir (s : State) (q : PortIx) (v : Int) : State :=
  let pin := s.pinOwn q
  s.modPort q fun y =>
    let y := if pin then y.aim s.now v else y
    { y with o := { y.o with s := v } }

/-- A step count n applied at a step port (R126); `pin` where it reaches the pin. -/
def State.stepCommit (s : State) (p : PortIx) (n : Int) (pin : Bool) : State :=
  let x := s.ports[p]
  let dir := s.dirPort p
  let dirNow := (dir.map fun q => decide ((if s.pinOwn q then s.ports[q].o.act else s.ports[q].o.s) = 1)).getD false
  let turn := n != 0 && dirNow != decide (0 < n)
  let D := if turn then x.opt 15 8 * 25 else 0
  let pw := Nat.max (x.opt 27 16) 5
  let nmax := (s.tick.len - D) / (10 * pw)
  let m := Nat.min n.natAbs nmax
  let big := decide (nmax < n.natAbs)
  let sm : Int := if n < 0 then -(m : Int) else m
  let s := match dir with
    | some q => if turn then s.turnDir q (if 0 < n then 1 else 0) else s
    | none => s
  let s := s.modPort p fun x =>
    let x := if pin then x.aim s.now sm else x
    { x with c := { x.c with left := m, m := sm, stopped := x.c.stopped && !pin }, st := { x.st with clamp := x.st.clamp || big, f0 := decide (0 < m) } }
  if big then s.portFault p 0x1C (toWi n) s.now 0x1C else s

/-- A step port without a value for this frame, or whose direction pin is held, emits nothing (R126, R127); a level that an action left stands (R17). -/
def State.stepIdle (s : State) (p : PortIx) (pin : Bool) : State :=
  s.modPort p fun x =>
    let x := if pin && !x.c.stopped then x.aim s.now 0 else x
    { x with c := { x.c with left := 0, m := 0 }, st := { x.st with f0 := false } }

/-- A value for the pin, and S of R150. -/
def State.commitTo (s : State) (p : PortIx) (pin : Bool) (v : Int) : State :=
  s.modPort p fun x =>
    let x := { x with o := { x.o with s := v } }
    if pin then x.aim s.now v else x

/-- A value applied at the tick edge at rank 4 (R15, R74, R115, R121, R126, R128, R131, R150, R151); where the pin belongs to the graft path it
becomes S and drives what the function keeps beside the pin. -/
def State.applyOut (s : State) (p : PortIx) (w : Word) (pin : Bool) : State :=
  let x := s.ports[p]
  let v := w.toInt
  let m := x.md
  if x.counts then
    s.modPort p fun x => { x with c := { x.c with cnt := v, wraps := 0, capCnt := v, capWraps := 0 } }
  else if m = mRes ∧ x.opt 31 30 = 0 then
    let s := s.modPort p fun x =>
      let c := wrapI 48 ((w.toNat % 2 ^ 24 : Nat) * 2 ^ 24 + x.c.cnt % 2 ^ 24)
      { x with c := { x.c with cnt := c, wraps := 0, capCnt := c, capWraps := 0 } }
    s.commitTo p pin 0
  else if m = mAoV ∨ m = mAoI then
    let (c, cl) := clampOut x v
    (s.modPort p fun x => { x with st := { x.st with clamp := x.st.clamp || cl } }).commitTo p pin c
  else if m = mDo then s.commitTo p pin (if bit w 0 then 1 else 0)
  else if m = mPulse ∧ x.opt 31 30 = 0 then
    if (s.dirPort p).any fun q => s.ports[q].o.held != .free then s.stepIdle p pin else s.stepCommit p v pin
  else if m = mPulse ∧ x.opt 31 30 = 2 then
    let c := clampI 0 (x.opt 27 8 : Int) v
    (s.modPort p fun x =>
      { x with c := { x.c with pwm := c.toNat, stopped := x.c.stopped && !pin }, st := { x.st with clamp := x.st.clamp || c != v } }).commitTo p pin c
  else s

/-- The commit of one port (R15 to R17, R151): discarded under a hold, in a change of MODE, or while the port runs nothing. Outside SUBSTITUTE a
driving port notes S, and the graft path takes the pin again where a hold has let it go. -/
def State.commitPort (s : State) (p : PortIx) (v : Option Word) : State :=
  let x := s.ports[p]
  let pin := s.pinOwn p
  let s := s.modPort p fun x => { x with o := { x.o with taken := none, cand := none } }
  if x.modeWaits || x.a.change.isSome then s
  else
    let s :=
      if !x.a.runs || (pin && x.o.held != .free) then s
      else match v with
        | some w => s.applyOut p w pin
        | none => if x.md = mPulse ∧ x.opt 31 30 = 0 then s.stepIdle p pin else s
    if s.isDriving p && !pin then s.graftDrive (pairOf p) (s.regenValue (pairOf p)) s.now else s

/-! ### Groups that stop and start (R103, R105) -/

/-- A port that stops running: its outputs off, its counters frozen (R103). -/
def Port.haltFn (x : Port) (t : Nat) : Port :=
  let x := { x with a := { x.a with runs := false }, st := { x.st with halt := true, f0 := false } }
  if x.o.held = .free && x.outMode && !x.isAo then { x.stopFn.floatPin t with c := { x.stopFn.c with left := 0, ssi := none } } else x

/-- Judge every port of a Comb anew: a port whose group is incomplete or whose options are reserved halts; a port without a group runs. -/
def State.regroup (s : State) (c : CombIx) : State :=
  let s := s.each (portsOf c) fun p s =>
    let x := s.ports[p]
    if x.md = mIdle ∨ x.a.change.isSome then s.modPort p fun x => { x with a := { x.a with runs := false }, st := { x.st with halt := false } }
    else if !s.groupOk p then s.modPort p fun x => x.haltFn s.now
    else if groleOf x = .none then s.modPort p fun x => { x with a := { x.a with runs := true }, st := { x.st with halt := false } }
    else s
  s.fsSync c

/-! ### Latching (R124) -/

/-- A rising (or falling) edge is one that a two-bit selection names: 01 rising, 10 falling, 11 both. -/
def edgeSel (sel : Nat) (rising : Bool) : Bool := sel == 3 || (rising && sel == 1) || (!rising && sel == 2)

/-- An edge of a latch source latches the count at every port of the Comb that watches it (R124). -/
def State.latch (s : State) (src : PortIx) (rising : Bool) (ts : Nat) : State :=
  s.each (portsOf (combOf src)) fun q s =>
    let y := s.ports[q]
    if y.md = mDiff ∧ y.opt 20 20 = 1 ∧ y.opt 23 21 = lix src ∧ edgeSel (y.opt 19 18) rising ∧ y.a.runs then
      s.postEv q 0x12 (toWi y.c.cnt) ts
    else s

/-- A DI port's STATE changes: DI_EDGE where EDGE_EV selects it, and the latches that watch it (R114, R124). -/
def State.stateChange (s : State) (p : PortIx) (new : Bool) (ts : Nat) : State :=
  let s := s.modPort p fun x => { x with c := { x.c with state := new } }
  let s := if edgeSel (s.ports[p].opt 15 14) new then s.postEv p 0x10 (if new then 1 else 0) ts else s
  s.latch p new ts

/-! ### Settings (R70) -/

/-- Accepted settings wait that change no MODE. -/
def Port.settingsWait (x : Port) : Bool :=
  x.a.range != x.r.range || x.a.limits != x.r.limits || x.a.loadRef != x.r.loadRef || x.a.scoutTol != x.r.scoutTol ||
    (!x.modeWaits && x.a.change.getD x.a.mode != x.r.mode)

/-- Accepted settings that change no MODE take effect together (R70): a new slew limit counts from the level reached (R81), learning begins (R92),
a changed INV inverts STATE at once (R114), and a port whose part in a group changes waits for its group's start (R103). -/
def State.applySettings (s : State) (p : PortIx) : State :=
  let x := s.ports[p]
  let inv := x.md == mDi && bit x.a.range 12 != bit x.r.range 12
  let role := groleOf x
  let s := s.modPort p fun x =>
    let x := x.anchor s.now
    let x : Port :=
      { x with a := { x.a with range := x.r.range, limits := x.r.limits, loadRef := x.r.loadRef, scoutTol := x.r.scoutTol
                               mode := if x.modeWaits || x.a.change.isSome then x.a.mode else x.r.mode
                               change := if x.modeWaits then x.a.change else x.a.change.map fun _ => x.r.mode }
               st := { x.st with learn := if bit x.r.loadRef 8 then some (x.st.learn.getD (0, 0)) else none
                                 learnAt := if x.st.learn.isNone then s.tick.frames else x.st.learnAt } }
    { x with a := { x.a with runs := x.a.runs && groleOf x == role } }
  let s := s.regroup (combOf p)
  if inv then s.stateChange p (!s.ports[p].c.state) s.tick.edge else s

/-! ### Commands -/

/-- PC_MODE (R67, R68, R70). -/
def execPcMode (_a : Agent) (p : PortIx) (v : Word) (s : State) : Res := live s fun s => s.wrMode p v

/-- CHANGEOVER_FRAME: the first tick edge after a write that changes MODE (R68, R69, R92, R98, R308). -/
def execChangeoverFrame (p : PortIx) (s : State) : Res := liveR s fun s =>
  let x := s.ports[p]
  if !s.combReady (combOf p) || !x.modeWaits || decide (s.tick.frames ≤ x.a.wrote) || s.modeLocked p then s
  else
    let s := s.modPort p fun x =>
      let x := x.floatPin s.now
      { x with a := { x.a with change := some x.r.mode, since := s.tick.frames, runs := false }
               r := { x.r with loadRef := x.r.loadRef &&& 0xFFFFFEFF }
               o := { x.o with stg := [], taken := none, cand := none, held := .free, frozen := none, bound := false }
               i := { x.i with inVal := 0, rbVal := 0, loadVal := 0, conv := [], cap := [] }
               tx := { x.tx with q := [], cur := none, rx := none }
               c := { x.c with left := 0, m := 0, pwm := 0, pwmRun := 0, stopped := false, ssi := none, ssiFail := false, ssiRes := none, flt := false }
               p := { x.p with hist := [], pred := none }
               st := { x.st with modeChg := true, rbValid := false, learn := none, f0 := false, f1 := false, f2 := false, f3 := false
                                 dShort := {}, dOpen := {}, dDrift := {}, dDev := {}, dMism := {} } }
    -- a calibration of this port is abandoned and its request cleared (Table 3-11)
    let s := s.modComb (combOf p) fun c =>
      if c.calPort = some (finOf 8 (lix p)) then { c with calPort := none, calReq := c.calReq &&& ~~~(1#8 <<< lix p) } else c
    (s.modPort p fun x => { x with st := { x.st with calBusy := false } }).regroup (combOf p)

/-- A port starts in the mode that has just taken effect: an output mode at code 0 (R68), RAW and STATE of a DI port at once (R114), its hold
applied from this frame (Table 12-9). Its position counter and wrap count are those it had; the stamps and registers of counting start at 0
(R119, R120; log entry 94). -/
def State.startMode (s : State) (p : PortIx) : State :=
  let own := s.pinOwn p
  let s := s.modPort p fun x =>
    let x := { x with a := { x.a with change := none, since := s.tick.frames, runs := false }, st := { x.st with modeChg := false } }
    let on := x.outMode && own
    let x := { x with o := { x.o with stg := [], taken := none, cand := none, act := 0, dac := dacIn x 0, edgeAct := 0, level := 0, levelAt := s.now, s := 0
                                      on := on, driving := on && !x.shut, steady := true, upset := true }
                      c := { x.c with regCnt := 0, regWraps := 0, regTs := 0, edgeTs := 0, capTs := 0 } }
    if x.md = mDi then
      let st := x.c.line != bit x.a.range 12
      { x with c := { x.c with state := st, debTs := none }, i := { x.i with sample := if st then 1 else 0, sampleRaw := x.c.line }
               st := { x.st with f0 := st, f1 := x.c.line } }
    else x
  let s := s.rehold p
  if s.ports[p].isAo || s.ports[p].md == mAiV || s.ports[p].md == mAiI then s.startComparators p else s

/-- MODE_TAKES_EFFECT: the second tick edge (R68). -/
def execModeTakesEffect (p : PortIx) (s : State) : Res := liveR s fun s =>
  match s.ports[p].a.change with
  | some m => if s.tick.frames ≤ s.ports[p].a.since then s
    else ((s.modPort p fun x => { x with a := { x.a with mode := m } }).startMode p).regroup (combOf p)
  | none => s

/-- PORT_SETTINGS_APPLY: accepted settings that change no MODE take effect at the first tick edge after their write (R70, R114); TICK_EDGE has
them in force before its commit. -/
def execPortSettingsApply (p : PortIx) (s : State) : Res := liveR s fun s =>
  if s.tick.frames ≤ s.ports[p].a.wrote then s else s.applySettings p

/-- PC_OUT_SET (R43). -/
def execPcOutSet (a : Agent) (p : PortIx) (v : Word) (s : State) : Res := live s fun s =>
  s.wrOutSet p (match a with | .needle k => some k | _ => none) v

/-- ADC_CONVERSION (R75). -/
def execAdcConversion (p : PortIx) (raw : Int) (s : State) : Res := liveR s fun s => s.convert p raw

/-- THERM_SHUTDOWN: the driver die exceeds 160 °C (R87, R91). -/
def execThermShutdown (p : PortIx) (s : State) : Res := live s fun s =>
  let x := s.ports[p]
  if x.o.therm || !x.outMode || !s.combReady (combOf p) || (s.isDriving p && s.pairs[pairOf p].mode == .bypass) then s
  else
    let s := s.modPort p fun x => let x := x.stopFn.shutPin s.now; { x with o := { x.o with therm := true, thermWait := none } }
    s.portFault p 0x05 0 s.now 0x05

/-- THERM_COOLED: below 140 °C, THERM clears (R87). -/
def execThermCooled (p : PortIx) (s : State) : Res := live s fun s =>
  if s.ports[p].o.therm then s.modPort p fun x => { x with o := { x.o with therm := false, thermWait := some s.tick.frames } } else s

/-- THERM_RESUME: the stage resumes at the next tick edge towards the target in force, from 0 (R87). -/
def execThermResume (p : PortIx) (s : State) : Res := live s fun s =>
  match s.ports[p].o.thermWait with
  | some n => if n < s.tick.frames then s.modPort p fun x => ({ x with o := { x.o with thermWait := none } } : Port).resume s.now else s
  | none => s

/-- LEARN: a write of PC_LOAD_REF with LEARN (R92). -/
def execLearn (_a : Agent) (p : PortIx) (v : Word) (s : State) : Res := live s fun s => s.wrLoadRef p v

/-- LEARN_COMPLETE: after 256 qualifying frames (R92). The mean is that of R's magnitude, and one above 0xFFFF units is written as 0xFFFF (log entry 91). -/
def execLearnComplete (p : PortIx) (s : State) : Res := live s fun s =>
  match s.ports[p].st.learn with
  | some (n, sum) =>
    if 256 ≤ n then
      let r := Nat.min 0xFFFF ((sum + 128 * 2 ^ 32) / (256 * 2 ^ 32))
      s.modPort p fun x =>
        let w : Word := toW (put r 16 + fld x.r.loadRef 7 0)
        { x with r := { x.r with loadRef := w }, a := { x.a with loadRef := w }, st := { x.st with learn := none } }
    else s
  | none => s

/-- CB_CAL_REQ (R98). -/
def execCbCalReq (_a : Agent) (c : CombIx) (v : Word) (s : State) : Res := live s fun s => s.wrCalReq c v

/-- IN_SERVICE_CAL_START: the lowest requested port of a Comb with no calibration running (R96, R98, Table 3-11). Two frames of set-up come
before the 256 (R96: 258 frames per port). -/
def execInServiceCalStart (c : CombIx) (s : State) : Res := live s fun s =>
  let x := s.combs[c]
  if x.calPort.isSome || !s.combReady c || s.combFenced c then s
  else match (allFin 8).find? fun l => x.calReq.getLsbD l.val with
    | none => s
    | some l =>
      let p : PortIx := finOf 128 (8 * c.val + l.val)
      let y := s.ports[p]
      if y.modeNow = mIdle then s.modComb c fun x => { x with calReq := x.calReq &&& ~~~(1#8 <<< l.val) }
      else if y.o.held ≠ .free ∨ y.a.change.isSome then s
      else (s.modComb c fun x => { x with calPort := some l, calFrom := s.tick.frames + 2 }).modPort p fun x => { x with st := { x.st with calBusy := true } }

/-- The calibration interval of a Comb from the largest offset drift rate among its ports (R466), or its minimum after a reference drift (R465). -/
def State.calInterval (s : State) (c : CombIx) : State :=
  let hours := s.gauge.drift.foldl (fun n (p, _, ch, mins) =>
    if combOf p = c ∧ ch ≠ 0 ∧ mins ≠ 0 then Nat.min n (50 * 32 * mins / (ch * 625 * 60)) else n) s.gauge.calBase
  let h := if 200 < s.gauge.zen[c].natAbs then 1 else Nat.max 1 hours
  { s with gauge := { s.gauge with calInt := s.gauge.calInt.set c h } }

/-- An in-service calibration of a port has moved its ADC offset by some codes (R466). -/
def State.calDrift (s : State) (p : PortIx) (ch : Nat) : State :=
  let now := s.gauge.pon
  let e := match s.gauge.drift.find? (·.1 == p) with
    | some (_, m, _, _) => (p, now, ch, now - m)
    | none => (p, now, 0, 0)
  ({ s with gauge := { s.gauge with drift := (s.gauge.drift.filter (·.1 != p)) ++ [e] } } : State).calInterval (combOf p)

/-- A step between two coefficients (R97). -/
def calStep (a b : BitVec 16) : Nat := (b.toInt - a.toInt).natAbs

/-- IN_SERVICE_CAL_DONE: the tick edge after the last of 256 consecutive frames (R96, R97, R460, R466). `m` holds what the paired readings gave. -/
def execInServiceCalDone (c : CombIx) (m : CalSet) (adcSpan dacSpan : Bool) (s : State) : Res := live s fun s =>
  match s.combs[c].calPort with
  | none => s
  | some l =>
    let p : PortIx := finOf 128 (8 * c.val + l.val)
    let x := s.ports[p]
    if s.combFenced c ∨ x.o.held ≠ .free ∨ s.tick.frames < s.combs[c].calFrom + 256 ∨ s.tick.phase ≠ .edge then s
    else
      let old := x.calSet
      let new : CalSet :=
        { adcOfs := m.adcOfs, adcGain := if adcSpan then m.adcGain else old.adcGain
          dacOfs := if x.isAo then m.dacOfs else old.dacOfs, dacGain := if x.isAo && dacSpan then m.dacGain else old.dacGain }
      let bad := [calStep old.adcOfs new.adcOfs, calStep old.adcGain new.adcGain, calStep old.dacOfs new.dacOfs, calStep old.dacGain new.dacGain].any (64 < ·)
      let s := s.modComb c fun x => { x with calPort := none, calReq := x.calReq &&& ~~~(1#8 <<< l.val) }
      let s := s.modPort p fun x => { x with st := { x.st with calBusy := false } }
      if bad then
        let set := x.st.calFail
        let s := s.modPort p fun x => { x with st := { x.st with calFail := true } }
        if set then s else s.portFault p 0x06 0 s.now 0x06
      else
        let drift := calStep old.adcOfs new.adcOfs
        -- the coefficients take effect at the tick edge after the last frame: the edge of this event
        let s := s.modPort p fun x => match calIx x with
          | some i =>
            let x := { x with st := { x.st with cal := x.st.cal.set i new } }
            { x with o := { x.o with dac := dacIn x x.o.act } }
          | none => x
        s.calDrift p drift

end Sys2Proof.Machine
end

