-- ==== Sys2Proof/Machine/PortFn.lean ====
section
/-! DEFINITION. Port functions (chapter 04): groups and the field supply, digital inputs, counting and latching, steps and PWM, resolver
loss, SSI, characters and the reader, and the queue operations of chapter 13 at a port. -/

namespace Sys2Proof.Machine

/-! ### Groups and the field supply (R103, R104) -/

/-- GROUP_START: a complete group starts, judged at its lead (R103, R141). An SSI clock counts as idle from here (R134; log entry 95). -/
def execGroupStart (p : PortIx) (s : State) : Res := liveR s fun s =>
  let x := s.ports[p]
  if !s.combReady (combOf p) || x.a.runs || groleOf x == .none || !s.leadComplete p then s
  else
    let go (s : State) (q : PortIx) : State :=
      let own := s.pinOwn q
      s.modPort q fun y =>
        let y := { y with a := { y.a with runs := true }, st := { y.st with halt := false }, c := { y.c with ssiIdle := s.now } }
        if own && y.o.held == .free && y.outMode then { y with o := { y.o with on := true, driving := !y.shut } } else y
    let s := (s.windings p).foldl go (go s p)
    if x.md = mReader then (s.readerRest p).modComb (combOf p) fun c => { c with h := 0 } else s

/-- FS_LOW: the supply has been below 18 V for 1 ms (R104). -/
def execFsLow (c : CombIx) (s : State) : Res := live s fun s =>
  if s.combs[c].low || !s.combReady c then s
  else
    let s := (s.modComb c fun x => { x with low := true, fsResume := false }).fsSync c
    let v := toW s.combs[c].volt.toNat
    let s := s.each (portsOf c) fun p s => if s.fsDependent p then s.postEv p 0x19 v s.now else s
    s.report 0x04 c.val 0x8C 0 0

/-- FS_LOW_CLEAR: at 19.2 V or more for 10 ms; outputs resume at the next tick edge (R104). -/
def execFsLowClear (c : CombIx) (s : State) : Res := live s fun s =>
  if s.combs[c].low then s.modComb c fun x => { x with low := false, fsResume := true } else s

/-- FS_OVC: the current limit has acted for 10 ms (R104). -/
def execFsOvc (c : CombIx) (s : State) : Res := live s fun s =>
  if !s.combReady c then s
  else
    let s := (s.modComb c fun x => { x with fsOff := true, ovc := true }).fsSync c
    let s := s.each (portsOf c) fun p s => if s.fsDependent p then s.postEv p 0x1A 0 s.now else s
    s.report 0x04 c.val 0x8D 0 0

/-- FS_OVC_RESTORE: after 100 ms the outputs are restored (R104). -/
def execFsOvcRestore (c : CombIx) (s : State) : Res := live s fun s => (s.modComb c fun x => { x with fsOff := false }).fsSync c

/-! ### Edges and counting (R114, R119, R122 to R125) -/

/-- STATE of a DI port takes RAW after its stable period (R114). -/
def State.diTake (s : State) (p : PortIx) (ts : Nat) : State :=
  let x := s.ports[p]
  let new := x.c.line != bit x.a.range 12
  let s := s.modPort p fun x => { x with c := { x.c with debTs := none } }
  if new = x.c.state then s else s.stateChange p new (ts - 6000)

/-- DI_RAW_EDGE: the comparator of a DI port changes (R114, R123, R160). -/
def execDiRawEdge (p : PortIx) (level : Bool) (tdc : BitVec 4) (s : State) : Res := liveR s fun s =>
  let x := s.ports[p]
  if x.modeNow ≠ mDi ∨ x.c.line = level then s
  else
    let s := s.tdc tdc
    let ts := s.now
    let s := s.modPort p fun x => { x with c := { x.c with line := level } }
    if x.a.change.isSome then s
    else
      let s := s.modPort p fun x => { x with c := { x.c with debTs := some ts } }
      let s := if x.opt 31 16 = 0 then s.diTake p ts
        else if (s.ports[p].c.line != bit x.a.range 12) == x.c.state then s.modPort p fun x => { x with c := { x.c with debTs := none } } else s
      if s.isMeasuring p && s.gSigOf (pairOf p) == 2 then s.graftUpdate (pairOf p) (if level then 1 else 0) s.now else s

/-- DI_EDGE: RAW has been stable for DEB µs (R114, R124). -/
def execDiEdge (p : PortIx) (s : State) : Res := live s fun s =>
  let x := s.ports[p]
  match x.c.debTs with
  | some ts => if x.md = mDi then s.diTake p ts else s
  | none => s

/-- How one edge moves the count of a lead (Table 4-9): `leadEdge` says whose line changed, `rising` its direction; A and B after it. -/
def countStep (cnt : Nat) (leadEdge rising a b leadSel memberSel : Bool) : Int :=
  match cnt with
  | 1 => if leadEdge && !b then (if rising then 1 else -1) else 0
  | 2 => if leadEdge then (if a != b then 1 else -1) else 0
  | 3 => if leadEdge then (if a != b then 1 else -1) else (if a == b then 1 else -1)
  | 4 => if leadEdge && leadSel then (if b then 1 else -1) else 0
  | 5 => if leadEdge then (if leadSel then 1 else 0) else (if memberSel then -1 else 0)
  | 6 => if leadEdge && leadSel then 1 else 0
  | _ => 0

/-- An edge reaches the counter of its lead. -/
def State.countEdge (s : State) (lead : PortIx) (leadEdge rising : Bool) (member : Option PortIx) (ts : Nat) : State :=
  let x := s.ports[lead]
  if !x.a.runs || !x.counts then s
  else
    let b := (member.map fun q => s.ports[q].c.line).getD false
    let memSel := (member.map fun q => edgeSel (s.ports[q].opt 25 24) rising).getD false
    let d := countStep (x.opt 31 28) leadEdge rising x.c.line b (edgeSel (x.opt 25 24) rising) memSel
    let d := if bit x.a.range 16 then -d else d
    if d = 0 then s
    else
      let old := x.c.wraps
      let s := s.modPort lead fun x => let y := x.setCnt (x.c.cnt + d); { y with c := { y.c with edgeTs := ts } }
      s.wrapSat lead old

/-- A filtered edge of a DIFF_IN line after its count: EDGE where every edge is captured, and the driving port of a LINE pair (R125, R160). -/
def State.edgeDone (s : State) (p : PortIx) (lead : Option PortIx) (level : Bool) : State :=
  let x := s.ports[p]
  let cnt := match lead with | some q => s.ports[q].c.cnt | none => if level then 1 else 0
  let s := if x.opt 27 26 = 2 ∧ edgeSel (x.opt 25 24) level ∧ x.a.runs then s.postEv p 0x11 (toWi cnt) s.now else s
  if s.isMeasuring p && s.gSigOf (pairOf p) == 3 then s.graftUpdate (pairOf p) (if level then 1 else 0) s.now else s

/-- Both lines of a quadrature pair have changed in one 4 ns sample (R122): the count stands, QERR is set, and the first such sample of a frame is
posted; each line's edge latches and is captured as its own (R124, R125). -/
def State.quadBoth (s : State) (lead p other : PortIx) (level : Bool) : State :=
  let olevel := !s.ports[other].c.line
  let s := (s.latch p level s.now).latch other olevel s.now
  let s := (s.modPort p fun y => { y with c := { y.c with line := level, flt := false }, st := { y.st with f1 := false } }).modPort other
    fun y => { y with c := { y.c with line := olevel, flt := false }, st := { y.st with f1 := false } }
  let first := !s.ports[lead].c.qerr
  let s := s.modPort lead fun y => { y with c := { y.c with qerr := true }, st := { y.st with f2 := true } }
  let s := if first && s.ports[lead].a.runs then s.portFault lead 0x13 (toWi s.ports[lead].c.cnt) s.now 0x13 else s
  (s.edgeDone p (some lead) level).edgeDone other (some lead) olevel

/-- LINE_EDGE: a line of a DIFF_IN port, or of a serial line, changes; `both` when both lines of a quadrature pair change in one 4 ns sample
(R118, R119, R122, R124, R125, R160). With the level that the line already has, the line leaves the band of a line fault (R118). -/
def execLineEdge (p : PortIx) (level both : Bool) (tdc : BitVec 4) (s : State) : Res := liveR s fun s =>
  let s := s.tdc tdc
  let x := s.ports[p]
  let clear (s : State) : State :=
    s.modPort p fun y => { y with c := { y.c with flt := false }, st := { y.st with f1 := if y.md = mDiff then false else y.st.f1 } }
  if x.c.line = level then clear s
  else if x.receives then
    let s := s.modPort p fun x => { x with c := { x.c with line := level } }
    if s.isMeasuring p && s.gSigOf (pairOf p) == 5 then s.graftUpdate (pairOf p) (if level then 1 else 0) s.now else s
  else if x.md = mSsi then (clear s).modPort p fun x => { x with c := { x.c with line := level } }
  else if x.md ≠ mDiff then s
  else
    let lead := if x.counts then some p else if x.opt 31 28 = 7 then s.leadOf p else none
    let member := lead.bind fun q => (s.windings q).head?
    match lead, member with
    | some q, some r =>
      if both && decide (s.ports[q].opt 31 28 ≤ 3) then s.quadBoth q p (if q = p then r else q) level
      else
        -- the latch reports the count before this edge
        let s := clear ((s.latch p level s.now).modPort p fun x => { x with c := { x.c with line := level } })
        (s.countEdge q (q == p) level (some r) s.now).edgeDone p (some q) level
    | _, _ =>
      let s := clear ((s.latch p level s.now).modPort p fun x => { x with c := { x.c with line := level } })
      let s := match lead with | some q => s.countEdge q (q == p) level none s.now | none => s
      s.edgeDone p lead level

/-- LINE_FAULT: the differential voltage has stayed within ±200 mV for 1 µs (R118). -/
def execLineFault (p : PortIx) (s : State) : Res := live s fun s =>
  let x := s.ports[p]
  if x.c.flt ∨ (x.md ≠ mDiff ∧ x.md ≠ mSsi) then s
  else
    let s := s.modPort p fun x => { x with c := { x.c with flt := true }, st := { x.st with f1 := if x.md = mDiff then true else x.st.f1 } }
    s.portFault p 0x14 0 (s.now - 4000) 0x14

/-! ### Steps and PWM (R126 to R128) -/

/-- STEP_PULSE: a pulse of the frame rises (R126, R127). A stage that is off drops the rest of the frame's; on a driving port outside SUBSTITUTE the
pulse is S and reaches no pin, so the position does not count it (R150, R151). -/
def execStepPulse (p : PortIx) (s : State) : Res := liveR s fun s =>
  let x := s.ports[p]
  if x.md ≠ mPulse ∨ x.opt 31 30 ≠ 0 ∨ !x.a.runs ∨ x.c.left = 0 then s
  else if x.shut then s.modPort p fun x => { x with c := { x.c with left := 0 }, st := { x.st with f0 := false } }
  else if !s.pinOwn p then s.modPort p fun x => { x with c := { x.c with left := x.c.left - 1 }, st := { x.st with f0 := decide (1 < x.c.left) } }
  else
    let d : Int := if x.c.m < 0 then -1 else 1
    let old := x.c.wraps
    let s := s.modPort p fun x =>
      let y := x.setCnt (x.c.cnt + d)
      { y with c := { y.c with left := x.c.left - 1, emitted := x.c.emitted + d }, st := { y.st with f0 := decide (1 < x.c.left) } }
    (s.wrapSat p old).emit (.pulse p (decide (0 < d)))

/-- PWM_PERIOD_START: a period begins with the high time in force (R128); after an action none begins before the next tick commit (R17, R376). -/
def execPwmPeriodStart (p : PortIx) (s : State) : Res := live s fun s =>
  let x := s.ports[p]
  if x.md = mPulse ∧ x.opt 31 30 = 2 ∧ x.a.runs ∧ x.o.held = .free ∧ !x.c.stopped ∧ !x.shut then
    s.modPort p fun x => { x with c := { x.c with pwmRun := x.c.pwm }, st := { x.st with f0 := decide (0 < x.c.pwm) } }
  else s

/-! ### Resolver (R130, R132, R133) -/

def State.isExc (s : State) (p : PortIx) : Bool := s.ports[p].md == mRes && s.ports[p].opt 31 30 == 0 && s.ports[p].a.runs

/-- RESOLVER_LOCK: the loop error has stayed below 1/4,096 turn for a period (R132). -/
def execResolverLock (p : PortIx) (s : State) : Res := live s fun s =>
  if s.isExc p && !s.ports[p].c.loss then s.modPort p fun x => { x with st := { x.st with f0 := true }, c := { x.c with state := false } } else s

/-- RES_LOSS: four periods of low amplitude or bad phase (R133). -/
def execResLoss (p : PortIx) (amplitude : Word) (s : State) : Res := live s fun s =>
  if !s.isExc p || s.ports[p].c.loss then s
  else
    let s := s.modPort p fun x => { x with c := { x.c with loss := true, vel := 0 }, st := { x.st with f0 := false, f1 := true } }
    (s.postEv p 0x20 amplitude s.now).report 0x02 p.val 0x20 0 amplitude

/-- RES_LOSS_END: four good periods; the loop reacquires, keeping the turns (R133). -/
def execResLossEnd (p : PortIx) (s : State) : Res := live s fun s =>
  if s.isExc p && s.ports[p].c.loss then s.modPort p fun x => { x with c := { x.c with loss := false }, st := { x.st with f1 := false } } else s

/-- OPEN of a loop or an excitation becomes established (R91, R130, R138). -/
def State.openFound (s : State) (p : PortIx) : State :=
  (s.modPort p fun x => { x with st := { x.st with opn := true } }).portFault p 0x01 0 s.now 0x01

/-- EXCITATION_OPEN: the peak current has stayed below 1 mA for four periods (R130). -/
def execExcitationOpen (p : PortIx) (s : State) : Res := live s fun s =>
  if s.isExc p && bit s.ports[p].a.limits 5 then s.openFound p else s

/-! ### SSI (R134, R135) -/

/-- The clock port starts a transfer at T+40 ns, or sets SKIP (R134). -/
def State.ssiStart (s : State) (p : PortIx) : State :=
  let x := s.ports[p]
  if x.md ≠ mSsi ∨ bit x.a.range 31 ∨ !x.a.runs then s
  else if x.c.ssi.isNone && x.o.held == .free && decide ((x.opt 11 8 + 1) * 20000 ≤ s.now - x.c.ssiIdle) then
    s.modPort p fun x => { x with c := { x.c with ssi := some s.now, ssiFail := false }, o := { x.o with on := true, driving := !x.shut }
                                  st := { x.st with f0 := true, f2 := false } }
  else s.modPort p fun x => { x with st := { x.st with f2 := true } }

/-- Gray code to binary. -/
def grayToBin (n : Nat) : Nat → Nat
  | 0 => n
  | k + 1 => grayToBin (n ^^^ (n / 2 ^ (2 ^ k))) k

/-- SSI_TRANSFER_END: the end check of a transfer (R134, R135); p is the clock port. A transfer that an action has broken off fails, and SSI_ERR
shows it as the end check (log entry 96). -/
def execSsiTransferEnd (p : PortIx) (bits : BitVec 48) (startHigh endLow lineOk : Bool) (s : State) : Res := live s fun s =>
  let x := s.ports[p]
  match x.c.ssi, s.windings p with
  | some t0, q :: _ =>
    let s := s.modPort p fun x => { x with c := { x.c with ssi := none, ssiIdle := s.now - x.opt 23 13 * 16 }, st := { x.st with f0 := false } }
    let v := bits.toNat % 2 ^ (x.opt 30 24)
    let v := if bit x.a.range 12 then grayToBin v 6 else v
    let lineOk := lineOk && !s.ports[q].c.flt
    if startHigh && endLow && lineOk && x.o.held == .free && !x.c.ssiFail then
      s.modPort q fun y => { y with c := { y.c with ssiRes := some (v, t0) }, st := { y.st with f1 := false } }
    else
      let d : Word := toW (putb (!startHigh) 0 + putb (!endLow || x.o.held != .free || x.c.ssiFail) 1 + putb (!lineOk) 2)
      (s.modPort q fun y => { y with st := { y.st with f1 := true } }).portFault q 0x24 d t0 0x24
  | _, _ => s

/-! ### Characters (R137 to R139) -/

/-- PC_TXQ_PUSH (R138). -/
def execPcTxqPush (_a : Agent) (p : PortIx) (v : Word) (s : State) : Res := live s fun s => s.wrTxqPush p v

/-- Handshake is on (R138, R139): TIA-232-F with HS. -/
def Port.handshake (x : Port) : Bool := x.md == mSerial && bit x.a.range 22 && !bit x.a.range 30

/-- Data bits of a character, its parity bit where PAR asks for one, and its stop bits in half bits (R137, Table 4-3). -/
def Port.dataBits (x : Port) : Nat := 5 + x.opt 26 25
def Port.parity (x : Port) (data : List Bool) : Option Bool :=
  let odd := data.foldl Bool.xor false
  match x.opt 29 27 with
  | 1 => some odd
  | 2 => some (!odd)
  | 3 => some true
  | 4 => some false
  | _ => none
def Port.stopHalves (x : Port) : Nat := 2 + x.opt 24 23

/-- A character on the line: levels, mark true, with how many half bits each lasts; a break is space for two character times and mark for one bit
(R137, R138). -/
def Port.charForm (x : Port) (c : BitVec 9) : List (Bool × Nat) :=
  let data := (List.range x.dataBits).map c.getLsbD
  let form := (false, 2) :: ((data ++ (x.parity data).toList).map fun b => (b, 2)) ++ [(true, x.stopHalves)]
  if c.getLsbD 8 then [(false, 2 * (form.map (·.2)).sum), (true, 2)] else form

/-- A received character, read off the levels after its start bit (R137, R139): data, parity error, stop bits. Of one and a half stop bits the
whole one is sampled. -/
def Port.charRead (x : Port) (data : Byte) (parity stop1 stop2 : Bool) : Nat × Bool × List Bool :=
  (data.toNat % 2 ^ x.dataBits, (x.parity ((List.range x.dataBits).map data.getLsbD)).any (· != parity), [stop1, stop2].take (x.stopHalves / 2))

/-- The line stayed at space through the character (R139). -/
def Port.spaceAll (x : Port) (data : Byte) (parity stop1 stop2 : Bool) : Bool :=
  let (d, _, stop) := x.charRead data parity stop1 stop2
  d == 0 && !stop.any id && !(parity && (x.parity []).isSome)

/-- TX_CHARACTER_START: a queued character starts on the line (R138). On a driving port outside SUBSTITUTE it is S and does not reach the line
(R150, R151). -/
def execTxCharacterStart (p : PortIx) (cts : Bool) (s : State) : Res := live s fun s =>
  let x := s.ports[p]
  if !x.transmits || !x.a.runs || x.tx.cur.isSome || x.o.held != .free then s
  else
    let s := if x.handshake then s.modPort p fun x => { x with st := { x.st with f2 := cts } } else s
    match x.tx.q with
    | c :: rest => if x.handshake && !cts then s
      else
        let s := s.modPort p fun x => { x with tx := { x.tx with q := rest, cur := some c }, st := { x.st with f0 := true } }
        if s.pinOwn p then
          (s.modPort p fun x => { x with o := { x.o with on := true, driving := !x.shut } }).emit (.txChar p (fld x.a.range 20 0) (x.charForm c))
        else s
    | [] => s

/-- TX_CHARACTER_END: the last stop bit ends; an empty queue posts TX_EMPTY (R138). -/
def execTxCharacterEnd (p : PortIx) (s : State) : Res := live s fun s =>
  let x := s.ports[p]
  if x.tx.cur.isNone then s
  else
    let s := s.modPort p fun x => { x with tx := { x.tx with cur := none }, st := { x.st with f0 := false } }
    if x.tx.q.isEmpty then s.postEv p 0x2A 0 s.now else s

/-- LOOP_OPEN: a mark has drawn less than 10 mA for 100 ms (R138). -/
def execLoopOpen (p : PortIx) (s : State) : Res := live s fun s =>
  let x := s.ports[p]
  if x.md = mLoop ∧ x.transmits ∧ bit x.a.range 30 ∧ bit x.a.limits 5 ∧ x.a.runs then s.openFound p else s

/-- A serial measuring port's line changes (R160). -/
def State.serialLine (s : State) (p : PortIx) (level : Bool) : State :=
  let s := s.modPort p fun x => { x with c := { x.c with line := level } }
  if s.isMeasuring p && s.gSigOf (pairOf p) == 5 then s.graftUpdate (pairOf p) (if level then 1 else 0) s.now else s

/-- START_BIT: a mark-to-space edge, stamped (R139). -/
def execStartBit (p : PortIx) (tdc : BitVec 4) (s : State) : Res := liveR s fun s =>
  let s := s.tdc tdc
  let x := s.ports[p]
  if !x.receives || !x.a.runs || x.tx.rx.isSome || x.st.f1 then s
  else (s.modPort p fun x => { x with tx := { x.tx with rx := some s.now } }).serialLine p false

/-- RX_CHAR: the stop bits of a received character have passed (R139). Space from the start bit through the stop bits is a break. -/
def execRxChar (p : PortIx) (data : Byte) (parity stop1 stop2 : Bool) (s : State) : Res := liveR s fun s =>
  let x := s.ports[p]
  match x.tx.rx with
  | none => s
  | some t0 =>
    let (d, bad, stop) := x.charRead data parity stop1 stop2
    let brk := x.spaceAll data parity stop1 stop2
    let s := s.modPort p fun x => { x with tx := { x.tx with rx := none }, st := { x.st with f1 := brk } }
    if brk then s.postEv p 0x29 0 t0
    else (s.postEv p 0x28 (toW (d + putb bad 8 + putb (!stop.all id) 9)) t0).serialLine p (stop.getLastD true)

/-- BREAK_END: the line returns to mark (R139). -/
def execBreakEnd (p : PortIx) (s : State) : Res := liveR s fun s =>
  let x := s.ports[p]
  if x.receives && x.st.f1 then (s.modPort p fun x => { x with st := { x.st with f1 := false } }).serialLine p true else s

/-! ### Reader (R141) -/

/-- The READY line of a Comb's reader (R140, Table 12-5): the group runs, nothing holds it, and a forward character is available. -/
def State.readerReady (s : State) (c : CombIx) : Bool :=
  let x := s.ports[(finOf 128 (8 * c.val) : PortIx)]
  x.md == mReader && x.a.runs && (portsOf c).all (fun p => s.ports[p].o.held == .free) &&
    (decide (0 < s.combs[c].h) || !x.tx.q.isEmpty)

/-- READER_STEP: a STEP edge of the Comb's reader (R141). -/
def execReaderStep (c : CombIx) (dirHigh : Bool) (s : State) : Res := live s fun s =>
  let p := finOf 128 (8 * c.val)
  let x := s.ports[p]
  let cb := s.combs[c]
  if x.md ≠ mReader ∨ !x.a.runs ∨ x.o.held ≠ .free then s
  else if cb.seq ≠ .idle then s.portFault p 0x32 0 s.now 0x32
  else if dirHigh && bit x.a.range 9 then
    match cb.hist[cb.h + 1]? with
    | some ch => s.modComb c fun y => { y with h := cb.h + 1, seq := .data ch }
    | none => s.portFault p 0x33 0 s.now 0x33
  else if 0 < cb.h then
    s.modComb c fun y => { y with h := cb.h - 1, seq := .data (cb.hist[cb.h - 1]?.getD 0) }
  else match x.tx.q with
    | [] => (s.modPort p fun x => { x with st := { x.st with f1 := true } }).portFault p 0x31 0 s.now 0x31
    | ch :: rest =>
      let b : Byte := ch.truncate 8
      let s := s.modPort p fun x => { x with tx := { x.tx with q := rest }, st := { x.st with f1 := false } }
      let s := s.modComb c fun y => { y with hist := (b :: y.hist).take 256, seq := .data b }
      if rest.length = 64 then s.postEv p 0x30 64 s.now else s

/-- READER_DATA: the data lines take the character at t0 + DLY µs (R141). -/
def execReaderData (c : CombIx) (s : State) : Res := live s fun s =>
  match s.combs[c].seq with
  | .data ch =>
    let s := s.modComb c fun y => { y with lines := ch ^^^ s.noHole (finOf 128 (8 * c.val)), seq := .strobe }
    s.each (portsOf c) fun p s => s.modPort p fun x => { x with o := { x.o with on := true, driving := !x.shut } }
  | _ => s

/-- STROBE_START: STROBE rises 2 µs after the data (R141). -/
def execStrobeStart (c : CombIx) (s : State) : Res := live s fun s =>
  if s.combs[c].seq = .strobe then s.modComb c fun y => { y with strobe := true, seq := .inStrobe } else s

/-- STROBE_END: STROBE falls after STW µs (R141). -/
def execStrobeEnd (c : CombIx) (s : State) : Res := live s fun s =>
  if s.combs[c].seq = .inStrobe then s.modComb c fun y => { y with strobe := false, seq := .idle } else s

/-! ### Queue operations at a port (R394 to R401) -/

/-- TXQ_FLUSH: a write of PC_TXQ_STAT (R394). -/
def execTxqFlush (_a : Agent) (p : PortIx) (v : Word) (s : State) : Res := live s fun s => s.wrTxqStat p v
/-- EVQ_FLUSH: a write of PC_EVQ_STAT (R394, R400). -/
def execEvqFlush (_a : Agent) (p : PortIx) (v : Word) (s : State) : Res := live s fun s => s.wrEvqStat p v
/-- SET: a write of PC_EVQ_MARK (R396). -/
def execSetMark (_a : Agent) (p : PortIx) (v : Word) (s : State) : Res := live s fun s => s.wrEvqMark p v
/-- REWIND: a write of PC_EVQ_MARK (R396, R398). -/
def execRewind (_a : Agent) (p : PortIx) (v : Word) (s : State) : Res := live s fun s => s.wrEvqMark p v
/-- REWIND_OLDEST: a write of PC_EVQ_MARK (R399). -/
def execRewindOldest (_a : Agent) (p : PortIx) (v : Word) (s : State) : Res := live s fun s => s.wrEvqMark p v

/-- DO_TERMINAL_EDGE: the terminal of a DO port crosses 12 V, as the DIG row of Table 12-3 watches it (R117, R369). -/
def execDoTerminalEdge (p : PortIx) (above : Bool) (s : State) : Res := liveR s fun s =>
  if s.ports[p].md = mDo then s.modPort p fun x => { x with c := { x.c with line := above } } else s

end Sys2Proof.Machine
end

