-- ==== Sys2Proof/Machine/Reflex.lean ====
section
/-! DEFINITION. The Reflex matrix (chapter 12): firing and holds, writes of rules and of the REFLEX block, E-stop and the drive enables. -/

namespace Sys2Proof.Machine

/-! ### Firing and holds (R373 to R375) -/

/-- BAR0 offset of a rule's firing counter (R368). -/
def ruleCntAddr (r : RuleIx) : Nat := 0x400000 + r.val * 0x20 + 0x18

/-- A firing opens relays: a close request of the same 4 ns cycle comes to nothing and is refused (Table 12-9). -/
def State.firedDe (s : State) (de : BitVec 4) : State :=
  let x := s.rx
  { s with rx := { x with deFired := (s.now, if x.deFired.1 = s.now then x.deFired.2 ||| de else de)
                          closeRej := x.closeRej || (x.deClosed.1 == s.now && x.deClosed.2 &&& de != 0) } }

/-- The parts of a firing that do not touch the pin: relays, count, record, HOLDING (R373). -/
def State.fireCore (s : State) (r : RuleIx) : State :=
  let x := s.rules[r]
  let de := BitVec.ofNat 4 (fld x.act 3 0)
  let s := (s.openDe de).firedDe de
  let old := x.fires
  let s := s.modRule r fun x => { x with fires := satInc x.fires, spent := true, holding := x.holding || decide (x.hold < 2) }
  let s := if old = 0xFFFFFFFE then
      ({ s with rx := { s.rx with ovf := true } } : State).report 0x13 0 0xA1 0 (toW (ruleCntAddr r)) else s
  if x.evq then
    s.postRx r.val 0x01 (if fld x.act 31 28 = 0 then 0xFF else fld x.act 22 16)
      (if fld x.trig 31 28 = 4 then 0xFF else fld x.trig 22 16) s.now
  else s

/-- The target of a rule that acts on a pin. -/
def Rule.target (x : Rule) : Option PortIx := if fld x.act 31 28 = 0 then none else some (finOf 128 (fld x.act 22 16))

/-- The pin's side of a firing (R373, R375). -/
def State.firePin (s : State) (r : RuleIx) : State :=
  let x := s.rules[r]
  match x.target with
  | none => s
  | some p => if x.hold < 2 then s.rehold p else s.actOnce r p (ruleHold s.ports[p] x s.now).1

/-- A rule may fire now: active, its condition true, and false since it last fired (R369). -/
def State.canFire (s : State) (r : RuleIx) : Bool := s.ruleActive s.rules[r] && s.condTrue s.rules[r] && !s.rules[r].spent

/-- A hold ends (R374, R375): the next-lowest rule takes over, or the pin stays. -/
def State.endHold (s : State) (r : RuleIx) : State :=
  let x := s.rules[r]
  if !x.holding then s
  else
    let s := s.modRule r fun x => { x with holding := false }
    let s := match x.target with | some p => s.rehold p | none => s
    if x.evq then
      s.postRx r.val 0x02 (if fld x.act 31 28 = 0 then 0xFF else fld x.act 22 16)
        (if fld x.trig 31 28 = 4 then 0xFF else fld x.trig 22 16) s.now
    else s

/-- An inactive rule does not hold (R372). -/
def State.dropHolds (s : State) : State :=
  s.each ((allFin 512).filter fun r => s.rules[r].holding && !s.ruleActive s.rules[r]) fun r s => s.endHold r

/-! ### Writes of a rule (R368, R377, R515) -/

def State.rxRej (s : State) : State := { s with rx := { s.rx with cfgRej := true } }

/-- The reserved encodings of a rule word (Table 12-2, R368). -/
def ruleBad (w : Nat) (v : Word) : Bool :=
  match w with
  | 0 => fld v 28 27 == 3
  | 1 => fld v 31 28 == 0 || decide (5 ≤ fld v 31 28) || (fld v 31 28 == 4 && fld v 22 16 != 0)
  | 3 => !bit v 29 && decide (127 < fld v 24 16)
  | 4 => decide (4 ≤ fld v 31 28) || (fld v 31 28 == 0 && fld v 22 16 != 0)
  | _ => false

/-- Store a word of a rule. -/
def ruleSet (x : Rule) (w : Nat) (v : Word) : Rule :=
  match w with
  | 0 => { x with en := bit v 31, hold := fld v 28 27, evq := bit v 25 }
  | 1 => { x with trig := v &&& 0xF87FFFFF }
  | 2 => { x with thresh := v }
  | 3 => { x with qual := v &&& 0xE1FF0000 }
  | 4 => { x with act := v &&& 0xF07F000F }
  | 5 => { x with value := v }
  | 7 => { x with threshHi := v &&& 0xFFFF }
  | _ => x

/-- A write of word `w` of rule r (R377, R515). -/
def State.wrRule (s : State) (r : RuleIx) (w : Nat) (v : Word) : State :=
  let x := s.rules[r]
  let rel := decide (w = 0) && bit v 26
  if x.lock then
    if rel then (if x.hold = 0 then s.endHold r else s) else { s with rx := { s.rx with lockRej := true } }
  else if ruleBad w v then s.rxRej
  else if w = 0 then
    let s := if (rel && decide (x.hold = 0)) || !bit v 31 then s.endHold r else s
    let s := s.modRule r fun x => ruleSet x 0 v
    if bit v 31 && !x.en then (s.modRule r fun x => { x with spent := false }).startComparator r else s
  else if x.en then { s with rx := { s.rx with wrBusy := true } }
  else
    let s := s.modRule r fun x => ruleSet x w v
    if w = 2 then s.startComparator r else s

/-! ### E-stop (R380 to R382) -/

/-- E-stop becomes active: relays open, the rules that watch it fire, ESTOP_ON is posted (R382). -/
def State.estopActive (s : State) : State :=
  if s.rx.estop then s
  else
    let s := { s with rx := { s.rx with estop := true } }
    let s := if s.rx.armed then s.openDe s.rx.deMask else s
    let s := s.postRx 0xFFFF 0x03 0xFF 0xFF s.now
    let hit := (allFin 512).filter fun r =>
      fld s.rules[r].trig 31 28 == 4 && fld s.rules[r].trig 15 0 == 0 && s.canFire r
    let s := s.each hit fun r s => s.fireCore r
    s.each hit.reverse fun r s => s.firePin r

/-- A write of REFLEX_ESTOP (R380, Table 12-12). -/
def State.wrEstop (s : State) (v : Word) : State :=
  let s := { s with rx := { s.rx with rstRej := s.rx.rstRej && !bit v 8 } }
  if !bit v 31 then s
  else if s.rx.closed.1 && s.rx.closed.2 && s.rx.raw.1 && s.rx.raw.2 && !s.rx.disc then
    (if s.rx.estop then ({ s with rx := { s.rx with estop := false } } : State).postRx 0xFFFF 0x04 0xFF 0xFF s.now else s)
  else { s with rx := { s.rx with rstRej := true } }

/-- A write of REFLEX_ESTOP_CFG (R377, R515). -/
def State.wrEstopCfg (s : State) (v : Word) : State :=
  if s.rx.cfgLock then { s with rx := { s.rx with lockRej := true } }
  else if fld v 23 12 < 10 ∨ 1000 < fld v 23 12 then s.rxRej
  else { s with rx := { s.rx with deMask := BitVec.ofNat 4 (fld v 27 24), discMs := fld v 23 12, filt := fld v 9 0 } }

/-! ### Drive enables (R383) -/

/-- DEk is held open by a rule or by E-stop (Table 12-12). -/
def State.heldOpen (s : State) : BitVec 4 :=
  (allFin 512).foldl (fun m r => if s.rules[r].holding then m ||| BitVec.ofNat 4 (fld s.rules[r].act 3 0) else m)
    (if s.rx.estop then s.rx.deMask else 0)

/-- The bits of a close request that are refused (R383, R420, Table 12-9). -/
def State.closeRefused (s : State) (req : BitVec 4) : BitVec 4 :=
  if s.rx.estop || !s.rx.armed || s.prop.grave || s.bound then req
  else req &&& (s.heldOpen ||| s.rx.deDis ||| (if s.rx.deFired.1 = s.now then s.rx.deFired.2 else 0))

/-- A write of REFLEX_DE (R383): opening prevails over closing. -/
def State.wrDe (s : State) (v : Word) : State :=
  let s := { s with rx := { s.rx with closeRej := s.rx.closeRej && !bit v 24 } }
  let req := BitVec.ofNat 4 (fld v 19 16)
  let no := s.closeRefused req
  let s := { s with rx := { s.rx with closeRej := s.rx.closeRej || no != 0, deDis := s.rx.deDis &&& ~~~req, deClosed := (s.now, req &&& ~~~no)
                                      coil := s.rx.coil ||| (req &&& ~~~no), aux := s.rx.aux ||| (req &&& ~~~no) } }
  s.openDe (BitVec.ofNat 4 (fld v 15 12))

/-! ### Commands -/

/-- FIRE (R369, R373, R375). -/
def execFire (r : RuleIx) (s : State) : Res := liveR s fun s => if s.canFire r then (s.fireCore r).firePin r else s

/-- RELEASE: a write of RULE_CTRL (R373, R377). -/
def execRelease (_a : Agent) (r : RuleIx) (v : Word) (s : State) : Res := liveR s fun s => s.wrRule r 0 v

/-- FOLLOW_HOLD_END: the condition has been false for QUAL_T (R373). -/
def execFollowHoldEnd (r : RuleIx) (s : State) : Res := liveR s fun s =>
  if s.rules[r].hold = 1 ∧ !s.condTrue s.rules[r] then s.endHold r else s

/-- A comparator's answer to the quantity q: its 512 LSB of hysteresis lie within 256 LSB of LIMIT on either side (R371). -/
def Rule.compare (x : Rule) (q : Int) : Bool :=
  let lim := sfld x.thresh 20
  if lim + 256 ≤ q then true else if q < lim - 256 then false else x.above

/-- REFLEX_COMPARATOR_CROSSING (R371). -/
def execReflexComparatorCrossing (r : RuleIx) (q : Int) (s : State) : Res := liveR s fun s =>
  if fld s.rules[r].trig 31 28 = 2 ∧ s.rules[r].en then s.modRule r fun x => { x with above := x.compare q } else s

/-- ESTOP_INPUT: an input changes level (R380, R381). -/
def execEstopInput (chB on : Bool) (s : State) : Res := liveR s fun s =>
  let set (x : Bool × Bool) : Bool × Bool := if chB then (x.1, on) else (on, x.2)
  let raw := set s.rx.raw
  let s := { s with rx := { s.rx with raw := raw, closed := if on then set s.rx.closed else s.rx.closed } }
  -- a discrepancy clears once both have been open together and then closed together
  let opened := s.rx.discOpen || (s.rx.disc && !raw.1 && !raw.2)
  if s.rx.disc && opened && raw.1 && raw.2 then { s with rx := { s.rx with disc := false, discOpen := false } }
  else { s with rx := { s.rx with discOpen := opened } }

/-- ESTOP_ON: a channel has been open for FILT µs (R380, R382). -/
def execEstopOn (s : State) : Res := liveR s fun s =>
  if s.rx.raw.1 && s.rx.raw.2 then s
  else
    let s := { s with rx := { s.rx with closed := (s.rx.closed.1 && s.rx.raw.1, s.rx.closed.2 && s.rx.raw.2) } }
    s.estopActive

/-- REFLEX_ESTOP_RESET: a write of REFLEX_ESTOP (R380). -/
def execReflexEstopReset (_a : Agent) (v : Word) (s : State) : Res := liveR s fun s => s.wrEstop v

/-- DISC: the channels have differed longer than DISC ms (R381). -/
def execDisc (s : State) : Res := liveR s fun s =>
  if s.rx.raw.1 == s.rx.raw.2 || s.rx.disc then s
  else
    let s := ({ s with rx := { s.rx with disc := true, discOpen := false } } : State).estopActive
    (s.postRx 0xFFFF 0x05 0xFF 0xFF s.now).report 0x11 0 0x94 0 0

/-- CLOSE: a write of REFLEX_DE (R383). -/
def execClose (_a : Agent) (v : Word) (s : State) : Res := live s fun s => s.wrDe v
/-- OPEN: a write of REFLEX_DE (R383). -/
def execOpenDe (_a : Agent) (v : Word) (s : State) : Res := live s fun s => s.wrDe v

/-- DE_AUX: a monitoring contact has disagreed with its coil for 20 ms (R383). -/
def execDeAux (k : Fin 4) (s : State) : Res := live s fun s =>
  if s.rx.deDis.getLsbD k.val then s
  else
    let m : BitVec 4 := 1#4 <<< k.val
    let was := s.rx.coil.getLsbD k.val
    let s := s.openDe m
    let s := { s with rx := { s.rx with deDis := s.rx.deDis ||| m, aux := if was then s.rx.aux &&& ~~~m else s.rx.aux ||| m } }
    (s.postRx 0xFFFF 0x07 0xFF 0xFF s.now).report 0x12 k.val 0x95 0 0

/-- REFLEX_PLANE: the two planes disagree (R386). -/
def execReflexPlane (s : State) : Res := live s fun s => s.report 0x13 0 0xF1 0 0

/-- REFLEX_EVQ_FLUSH: a write of REFLEX_EVQ_STAT (R394). -/
def execReflexEvqFlush (_a : Agent) (v : Word) (s : State) : Res := live s fun s =>
  if bit v 31 then { s with rx := { s.rx with evq := [] } } else s

end Sys2Proof.Machine
end

