-- ==== Sys2Proof/Machine/PortRegs.lean ====
section
/-! DEFINITION. The registers of the Comb region (R521, R522): what a read returns, the reads that act (R110, R142, R516), and the writes,
for every agent (R214, R510, R513). -/

namespace Sys2Proof.Machine

/-! ### Values -/

/-- PC_STAT (Tables 3-24 and 4-5). -/
def State.pcStat (s : State) (p : PortIx) : Word :=
  let x := s.ports[p]
  let t := x.st
  let rdr := x.md == mReader && lix p == 0
  -- RTS of a receive port is live (R139), and so is READY of a reader (R140)
  let f0 := if rdr then s.readerReady (combOf p) else t.f0
  let fsShown := x.md == mDi || x.md == mDo || x.md == mPulse || x.md == mReader
  let f2 := if fsShown then s.combs[(combOf p)].low
    else if x.receives && x.handshake then x.a.runs && decide (x.ev.unread.length ≤ 48) else t.f2
  toW (putb t.cfgRej 22 + putb t.ovf 21 + putb t.halt 20 + putb t.f3 19 + putb f2 18 + putb t.f1 17 + putb f0 16 +
    putb t.modeChg 15 + putb (x.o.held != .free) 14 + putb t.calBusy 13 + putb t.calFail 12 + putb x.o.therm 11 + putb t.ilim 10 +
    putb t.slew 9 + putb t.clamp 8 + putb t.ovrange 7 + putb t.comply 6 + putb t.short 5 + putb t.opn 4 + putb t.drift 3 +
    putb t.dev 2 + putb t.rbValid 1 + putb (s.combReady (combOf p) && !t.cellFail) 0)

/-- PC_EVQ_MARK (Table 13-3). -/
def PortEvq.markReg (e : PortEvq) : Word :=
  toW (putb e.rwFail 10 + putb e.markLost 9 + putb e.mark.isSome 8 + e.marked % 128)

/-- MODE_ACT (Table 5-11). -/
def GMode.code : GMode → Nat
  | .bypass => 0 | .observe => 1 | .substitute => 2 | .blend => 3 | .hold => 4 | .arming => 5 | .releasing => 6

/-- PC_GRAFT_STAT (Table 5-11). -/
def State.graftStat (s : State) (j : PairIx) : Word :=
  let x := s.pairs[j]
  toW (put x.alpha 16 + put x.err 12 + putb x.link 11 + putb x.auxOpen 10 + putb x.coil 9 + x.mode.code)

/-- What an agent has captured at a port (R510). -/
def Port.capOf (x : Port) (a : Agent) : PortCap := ((x.caps.find? fun c => c.1 = a).map (·.2)).getD {}

/-- A new capture of an agent. -/
def Port.setCap (x : Port) (a : Agent) (c : PortCap) : Port := { x with caps := (a, c) :: x.caps.filter fun y => y.1 ≠ a }

/-- PC_CNT_HI (Table 4-15). -/
def PortCnt.hi (c : PortCnt) : Word := toW (put c.regWraps 16 + ((c.regCnt % 2 ^ 48) / 2 ^ 32).toNat)

/-- PC_CNT_LO (Table 4-15). -/
def PortCnt.lo (c : PortCnt) : Word := BitVec.ofInt 32 c.regCnt

/-- A word of a port block, without the effects of R516 (Table 18-10); the captured halves are those of the agent. -/
def State.portPeek (s : State) (a : Agent) (p : PortIx) (ofs : Nat) : Word :=
  let x := s.ports[p]
  let cap := x.capOf a
  if !s.combReady (combOf p) then (if ofs = 0x74 then 0x20000000 else if ofs = 0x68 ∧ p.val % 2 = 0 then toW (putb s.pairs[(pairOf p)].link 11) else 0)
  else match ofs / 4 with
  | 0x00 => x.r.mode
  | 0x01 => x.r.range
  | 0x02 => x.r.limits
  | 0x03 => x.r.loadRef
  | 0x04 => x.r.outSet
  | 0x05 => toWi (if s.isDriving p then x.o.edgeAct else x.o.act)
  | 0x06 => x.i.inVal
  | 0x07 => x.i.rbVal
  | 0x08 => x.i.loadVal
  | 0x09 => s.pcStat p
  | 0x0A => let c := x.calSet; toW (put (if x.outMode then c.dacGain.toNat else 0) 16 + c.adcGain.toNat)
  | 0x0B => let c := x.calSet; toW (put (if x.outMode then c.dacOfs.toNat else 0) 16 + c.adcOfs.toNat)
  | 0x0C => x.c.lo
  | 0x0D => cap.cntHi
  | 0x0E => lo32 x.c.regTs
  | 0x0F => cap.tsHi
  | 0x10 => toW (((x.ev.unread.head?).map fun r => r.word p).getD 0)
  | 0x11 => cap.evqHi
  | 0x12 => lo32 cap.evqTs
  | 0x13 => hi32 cap.evqTs
  | 0x14 => toW x.ev.unread.length
  | 0x15 => toW x.ev.lost
  | 0x16 => x.ev.markReg
  | 0x17 => x.r.txPush
  | 0x18 => toW (putb x.tx.drop 16 + x.tx.q.length)
  | 0x19 => if p.val % 2 = 0 then s.graftReg (pairOf p) else 0
  | 0x1A => if p.val % 2 = 0 then s.graftStat (pairOf p) else 0
  | 0x1B => x.r.scoutTol
  | 0x1C => x.r.scoutPred
  | 0x1D => x.r.safe ||| toW (putb x.safeLock 30)
  | 0x1E => toW x.i.capLost
  | _ => 0

/-- A read of a Comb register (Tables 4-15, 3-25, 18-9). -/
def State.combPeek (s : State) (c : CombIx) (ofs : Nat) : Word :=
  let x := s.combs[c]
  let ps := portsOf c
  let mask (f : PortIx → Bool) : Nat := ps.foldl (fun n p => n + putb (f p) (lix p)) 0
  let link : Nat := (List.range 4).foldl (fun n j => n + putb s.pairs[(finOf 64 (4 * c.val + j) : PairIx)].link (8 * j + 7)) 0
  if !s.combReady c then (if ofs = 0x10 then toW link else 0)
  else match ofs / 4 with
  | 0 => toW (put (mask fun p => s.ports[p].st.cfgRej) 16 + putb (s.combFenced c) 2 + 1)
  | 1 => toW (put x.volt.toNat 16 + putb x.ovc 2 + putb x.low 1 + putb (decide (1000 < x.volt.toNat)) 0)
  | 2 => x.calReq.zeroExtend 32
  | 3 => match x.calPort with
    | some l => toW (2048 + put l.val 8)
    | none => 0
  | 4 => toW ((List.range 4).foldl (fun n j => n + put s.pairs[(finOf 64 (4 * c.val + j) : PairIx)].mode.code (8 * j)) link)
  | 5 => toW (mask fun p => s.ports[p].o.held != .free)
  | 6 => toW (put (mask fun p => s.ports[p].st.ovf) 8 + mask fun p => !s.ports[p].ev.unread.isEmpty)
  | 7 => x.zener
  | _ => 0

/-! ### Reads that act (R110, R142, R516) -/

/-- A pop of a port's event queue by an agent: the record's TS is captured, and on a low-half read bytes 12 to 15 (R110); a pop of an
empty queue returns zero and leaves the TS captures as they are (R392). -/
def State.evqPop (s : State) (a : Agent) (p : PortIx) (low : Bool) : BitVec 64 × State :=
  if !s.combReady (combOf p) then (0, s)
  else
    let x := s.ports[p]
    match x.ev.pop with
    | (none, _) => (0, if low then s.modPort p fun x => x.setCap a { x.capOf a with evqHi := 0 } else s)
    | (some r, ev) =>
      let w := BitVec.ofNat 64 (r.word p)
      (w, s.modPort p fun x => ({ x with ev := ev } : Port).setCap a
        { x.capOf a with evqTs := r.ts, evqHi := if low then w.extractLsb' 32 32 else (x.capOf a).evqHi })

/-- An aligned 32-bit read of a word of a port block, with its effects (Table 18-3). -/
def State.portRead (s : State) (a : Agent) (p : PortIx) (ofs : Nat) : Word × State :=
  let v := s.portPeek a p ofs
  if !s.combReady (combOf p) then (v, s)
  else match ofs / 4 with
  | 0x0C => (v, s.modPort p fun x => x.setCap a { x.capOf a with cntHi := x.c.hi })
  | 0x0E => (v, s.modPort p fun x => x.setCap a { x.capOf a with tsHi := hi32 x.c.regTs })
  | 0x10 => let (w, s) := s.evqPop a p true; (w.truncate 32, s)
  | 0x15 => (v, s.modPort p fun x => { x with ev := { x.ev with lost := 0 } })
  | 0x1A => (v, if p.val % 2 = 0 then s.modPair (pairOf p) fun x => { x with err := 0 } else s)
  | 0x1E => (v, s.modPort p fun x => { x with i := { x.i with capLost := 0 } })
  | _ => (v, s)

/-! ### Writes (R71, R513, R515) -/

/-- A 32-bit write of a word of a port block; `src` names the core whose routine stages with it. -/
def State.portWrite (s : State) (src : Option CoreIx) (p : PortIx) (ofs : Nat) (v : Word) : State :=
  match ofs / 4 with
  | 0x00 => s.wrMode p v
  | 0x01 => s.wrRange p v
  | 0x02 => s.wrLimits p v
  | 0x03 => s.wrLoadRef p v
  | 0x04 => s.wrOutSet p src v
  | 0x09 => s.wrPcStat p v
  | 0x14 => s.wrEvqStat p v
  | 0x16 => s.wrEvqMark p v
  | 0x17 => s.wrTxqPush p v
  | 0x18 => s.wrTxqStat p v
  | 0x19 => s.wrGraft p v
  | 0x1B => s.wrScoutTol p v
  | 0x1C => s.wrScoutPred p v
  | 0x1D => s.wrSafe p v
  | _ => s

/-- A 32-bit write of a Comb register. -/
def State.combWrite (s : State) (c : CombIx) (ofs : Nat) (v : Word) : State :=
  match ofs / 4 with
  | 1 => s.wrFsStat c v
  | 2 => s.wrCalReq c v
  | _ => s

/-- What an offset of the Comb region names (R6, R508). -/
inductive CombReg where
  | comb (c : CombIx) (ofs : Nat)
  | port (p : PortIx) (ofs : Nat)
  | none
  deriving DecidableEq, Repr

/-- The register at an offset from 0x0100_0000. -/
def combRegAt (a : Nat) : CombReg :=
  if 0x100000 ≤ a then .none
  else
    let c := a / 0x10000
    let o := a % 0x10000
    if o < 0x1000 then .comb (finOf 16 c) o
    else if o < 0x2000 then .port (finOf 128 (8 * c + (o - 0x1000) / 0x200)) (o % 0x200)
    else .none

/-- A 32-bit read in the Comb region by an agent (R214, R509). -/
def State.regionRead (s : State) (a : Agent) (addr : Nat) : Word × State :=
  match combRegAt addr with
  | .comb c o => (s.combPeek c o, s)
  | .port p o => s.portRead a p o
  | .none => (0, s)

/-- The same without effects. -/
def State.regionPeek (s : State) (a : Agent) (addr : Nat) : Word :=
  match combRegAt addr with
  | .comb c o => s.combPeek c o
  | .port p o => s.portPeek a p o
  | .none => 0

/-- A 32-bit write in the Comb region. -/
def State.regionWrite (s : State) (src : Option CoreIx) (addr : Nat) (v : Word) : State :=
  match combRegAt addr with
  | .comb c o => s.combWrite c o v
  | .port p o => s.portWrite src p o v
  | .none => s

end Sys2Proof.Machine
end

