-- ==== Sys2Proof/Machine/Needle.lean ====
section
/-! DEFINITION. A Needle core beside its instructions: regions of the data space (Table 7-5), result distances (R235 to R239), the store
buffer (R216), cycles (R47), the start of a routine (R179, R209), its stop by a cutoff or fence (R234, R262) and its end. -/

namespace Sys2Proof.Machine

/-! ### Regions (R212, Table 7-5) -/

/-- Where a data address lies: an offset in data SRAM, in the cluster's SRAM, in local memory, or in port space. -/
inductive Loc where
  | data (a : Nat)
  | cluster (a : Nat)
  | lmem (o : Nat)
  | port (a : Nat)
  | none
  deriving DecidableEq, Repr

/-- The region of a data address under LMW.BASE. -/
def locOf (lmw a : Nat) : Loc :=
  if a < 0x20000 then .data a
  else if a < 0x28000 then .cluster (a - 0x20000)
  else if a < 0x40000000 then .none
  else if a < 0x80000000 then .lmem (lmw * 0x10000000 + (a - 0x40000000))
  else if a < 0x81000000 then .port (a - 0x80000000)
  else .none

/-- The address under which a posted store or a commit-buffer entry keeps a location: local memory by its offset above 2^32. -/
def Loc.key : Loc → Nat
  | .data a => a
  | .cluster a => 0x20000 + a
  | .lmem o => 0x100000000 + o
  | .port a => 0x80000000 + a
  | .none => 0x90000000

/-- The location that a kept address names. -/
def locAt (x : Nat) : Loc := if 0x100000000 ≤ x then .lmem (x - 0x100000000) else locOf 0 x

/-- Two locations of one region (R216). -/
def Loc.sameRegion : Loc → Loc → Bool
  | .data _, .data _ | .cluster _, .cluster _ | .lmem _, .lmem _ | .port _, .port _ => true
  | _, _ => false

/-! ### Registers and results in flight (R207, R235 to R237) -/

/-- A general register; g0 reads 0. -/
def Core.rd (c : Core) (r : BitVec 5) : Word := if r = 0 then 0 else c.g[r.toNat]'(r.isLt)

/-- A write that is seen by the next instruction; writes to g0 are discarded. -/
def Core.wr (c : Core) (r : BitVec 5) (v : Word) : Core := if r = 0 then c else { c with g := c.g.set r.toNat v r.isLt }

/-- Some writes, in order. -/
def Core.wrs (c : Core) (l : List (BitVec 5 × Word)) : Core := l.foldl (fun c x => c.wr x.1 x.2) c

/-- A result that lands after d further instructions (R235). -/
def Core.later (c : Core) (r : BitVec 5) (v : Word) (d : Nat) : Core := { c with fly := c.fly ++ [⟨r, v, d⟩] }

/-- Results at their distance land, in program order (R237). -/
def Core.landDue (c : Core) : Core :=
  { c.wrs ((c.fly.filter fun f => f.left == 0).map fun f => (f.reg, f.val)) with fly := c.fly.filter fun f => f.left != 0 }

/-- Every result still in flight lands (R253). -/
def Core.landAll (c : Core) : Core := { c.wrs (c.fly.map fun f => (f.reg, f.val)) with fly := [] }

/-- The core runs a Scout routine. -/
def Core.inScout (c : Core) : Bool := (c.run.map (·.scout)).getD false

/-- What comes before an instruction executes: results at their distance land, the others and the stores not yet seen come one nearer
(R237 to R239). -/
def Core.begin (c : Core) : Core :=
  let d := c.landDue
  { d with fly := d.fly.map fun f => { f with left := f.left - 1 }
           sb := c.sb.map fun f => { f with left := f.left - 1 }
           fresh := (c.fresh.filter fun f => 1 < f.left).map fun f => { f with left := f.left - 1 } }

/-! ### Cycles (R47) -/

/-- Cycles charged to a core, to its running routine and to the routine's channel. -/
def State.charge (s : State) (k : CoreIx) (n : Nat) : State :=
  let s := s.modCore k fun c => { c with cyc := c.cyc + n, run := c.run.map fun r => { r with cyc := r.cyc + n } }
  match s.cores[k].run with
  | some r => s.modChan r.ch fun x => { x with cyc := x.cyc + n, sc := if r.scout then { x.sc with cyc := x.sc.cyc + n } else x.sc }
  | none => s

/-! ### Reading memory -/

/-- Bytes with a store laid over them. -/
def overlay (a : Nat) (bs : List Byte) (st : Nat × List Byte) : List Byte :=
  bs.mapIdx fun i b => if st.1 ≤ a + i ∧ a + i < st.1 + st.2.length then st.2.getD (a + i - st.1) b else b

/-- Stores of a Scout run that a load sees (R275): those to data SRAM from the store-to-load distance on. A store made by the repeat pair
in progress is seen by the pair's later elements (R244). -/
def scoutSeen (c : Core) (buf : List BufEntry) : List (Nat × List Byte) :=
  let st := buf.filterMap fun e => match e with | .store a b => some (a, b) | _ => none
  let ds := st.filter fun x => decide (x.1 < 0x20000)
  let far := st.filter fun x => !decide (x.1 < 0x20000)
  let pair := (c.fresh.filter fun f => f.left == 3).length
  ds.take (ds.length - c.fresh.length) ++ ds.drop (ds.length - pair) ++ far

/-- The data SRAM as the core's own loads see it at n bytes from a: the arrived stores not yet seen are taken back, newest first; then those of
the repeat pair in progress (R244) and the posted stores at their distance are laid over, oldest first (R216, R239). -/
def Core.dataBytes (c : Core) (a n : Nat) : List Byte :=
  let back := (c.fresh.reverse.map fun f => (f.addr, f.old)).foldl (overlay a) (Memory.read c.dsram a n)
  let pair := (c.fresh.filter fun f => f.left == 3).map fun f => (f.addr, f.bytes)
  let mine := (c.sb.filter fun f => decide (f.addr < 0x20000) && (f.left == 0 || f.left == 3)).map fun f => (f.addr, f.bytes)
  (pair ++ mine).foldl (overlay a) back

/-- n bytes as a load, an atomic or a string element of the core reads them (R239, R244, R275). -/
def State.coreBytes (s : State) (k : CoreIx) (l : Loc) (n : Nat) : List Byte :=
  let c := s.cores[k]
  let base := match l with
    | .data a => if c.inScout then Memory.read c.dsram a n else c.dataBytes a n
    | .cluster a => Memory.read s.csram[(clusterOf k)] a n
    | .lmem o => Memory.read s.lmem o n
    | _ => zeros n
  match c.run with
  | some r => if r.scout then (scoutSeen c s.chans[r.ch].sc.buf).foldl (overlay l.key) base else base
  | none => base

/-! ### Stores (R216, R227) -/

/-- A reservation's granule, seen in cluster SRAM, meets n bytes from offset a. -/
def granuleInCluster (g a n : Nat) : Bool := decide (g * 32 < 0x20000 + a + n) && decide (0x20000 + a < g * 32 + 32)

/-- A store reaches its target. -/
def State.perform (s : State) (k : CoreIx) (x : Nat) (bytes : List Byte) : State :=
  match locAt x with
  | .data a => s.modCore k fun c => { c with dsram := Memory.write c.dsram a bytes }
  | .cluster a =>
    let q := clusterOf k
    { s with csram := s.csram.set q (Memory.write s.csram[q] a bytes) }.clearRsv (some k)
      fun j g _ => clusterOf j == q && granuleInCluster g a bytes.length
  | .lmem o => s.localWrite (some k) o bytes
  | .port a => s.regionWrite (some k) a (toW (ofLeBytes bytes))
  | .none => s

/-- The buffer has no room (R216). -/
def Core.full (c : Core) : Bool := decide (8 ≤ c.sb.length)

/-- A store as it is posted; one to data SRAM is seen by the core's own loads from its distance on (R239). -/
def posted (x : Nat) (bytes : List Byte) : Store := ⟨x, bytes, if x < 0x20000 then 3 else 0⟩

/-- A store is posted (R216). -/
def Core.post (c : Core) (st : Store) : Core := { c with sb := c.sb ++ [st] }

/-- A posted store reaches its target; one to data SRAM that the core's own loads may not yet see leaves the old bytes behind (R239). -/
def State.arrive (s : State) (k : CoreIx) (st : Store) : State :=
  let old := Memory.read s.cores[k].dsram st.addr st.bytes.length
  let s := s.perform k st.addr st.bytes
  if st.left = 0 then s else s.modCore k fun c => { c with fresh := c.fresh ++ [⟨st.addr, old, st.bytes, st.left⟩] }

/-- Every buffered store of one region arrives, in program order. -/
def State.drainRegion (s : State) (k : CoreIx) (l : Loc) : State :=
  let mine := s.cores[k].sb.filter fun x => (locAt x.addr).sameRegion l
  let s := s.modCore k fun c => { c with sb := c.sb.filter fun x => !(locAt x.addr).sameRegion l }
  s.each mine fun x s => s.arrive k x

/-- Every buffered store arrives. -/
def State.drainAll (s : State) (k : CoreIx) : State :=
  let all := s.cores[k].sb
  (s.modCore k fun c => { c with sb := [] }).each all fun x s => s.arrive k x

/-! ### Holds (R45, R47) -/

/-- Cycles of 600 MHz in a span of time: 3 cycles take 20 LSB. -/
def cyclesIn (t : Nat) : Nat := t * 3 / 20

/-- The core is held from now on. -/
def State.holdCore (s : State) (k : CoreIx) (h : CoreHold) : State := s.modCore k fun c => { c with hold := some h, held := (s.now, 0) }

/-- The cycles of a hold up to now are charged (R45, R47). -/
def State.chargeHeld (s : State) (k : CoreIx) : State :=
  let c := s.cores[k]
  if c.hold.isNone then s
  else
    let n := cyclesIn (s.now - c.held.1)
    (s.modCore k fun c => { c with held := (s.now, c.held.2 + n) }).charge k n

/-- A hold ends whose cycles time tells: SYNC, DONE, a full store buffer, the wait for the mezzanine. -/
def State.unhold (s : State) (k : CoreIx) : State := (s.chargeHeld k).modCore k fun c => { c with hold := none }

/-- A hold of n cycles ends; those charged in earlier frames are not charged again (R45). -/
def State.unholdFor (s : State) (k : CoreIx) (n : Nat) : State := (s.charge k (n - s.cores[k].held.2)).modCore k fun c => { c with hold := none }

/-! ### Start and end of a routine -/

/-- The entry registers (R179, R266). -/
def entryRegs (g1 g2 g3 g4 g5 : Word) : Vector Word 32 :=
  ((((((Vector.replicate 32 0).set 1 g1).set 2 g2).set 3 g3).set 4 g4).set 5 g5).set 31 0x00018000

/-- A routine starts: entry registers, and every control and trap register at its cold-reset value (R179, R209, R263). -/
def State.startRun (s : State) (k : CoreIx) (r : Run) (pc : Word) (g : Vector Word 32) : State :=
  s.modCore k fun c =>
    { c with g := g, fly := [], pc := pc, slot := none, rpt := none, cr := {}, tr := {}, fresh := [], hold := none, run := some r }

/-- The core is free of its routine: what the routine staged stands, its reservation goes (R227). -/
def State.freeCore (s : State) (k : CoreIx) : State :=
  let s := (s.chargeHeld k).modCore k fun c =>
    { c with run := none, hold := none, fly := [], fresh := [], slot := none, rpt := none, cr := { c.cr with rsv := none } }
  { s with ports := s.ports.map fun x : Port =>
      if x.o.stg.any (·.1 == some k) then { x with o := { x.o with stg := x.o.stg.map fun e => if e.1 = some k then (none, e.2) else e } } else x }

/-- A store to a port's staging register. -/
def isStageKey (x : Nat) : Bool :=
  match locAt x with
  | .port a => match combRegAt a with
    | .port _ o => o / 4 == 4
    | _ => false
  | _ => false

/-- The store that waits for room in the buffer. -/
def Core.waiting (c : Core) : List Store :=
  match c.hold with
  | some (.full _ st _ _) | some (.elemFull _ st) => [st]
  | _ => []

/-- A cutoff or fence stops a routine at the next instruction boundary, a store that waits for room included: its staging writes, in the store
buffer and already made, are discarded as one set; its other stores complete (R44, R202, R234, R262). -/
def State.stopCore (s : State) (k : CoreIx) : State :=
  let s := s.modCore k fun c => { c with sb := (c.sb ++ c.waiting).filter fun x => !isStageKey x.addr }
  let s := { s with ports := s.ports.map fun x : Port =>
      if x.o.stg.any (·.1 == some k) then { x with o := { x.o with stg := x.o.stg.filter fun e => e.1 ≠ some k } } else x }
  (s.drainAll k).freeCore k

/-- A core may take work (R182, R356, R418, R454). -/
def State.coreFree (s : State) (k : CoreIx) : Bool :=
  let c := s.cores[k]
  c.run.isNone && c.hold.isNone && !c.fenced && s.nclReady (clusterOf k) && s.dom (1 + (clusterOf k).val) == .on

/-! ### Grants (R447, R448) -/

/-- A channel's estimate in pJ; 2,000 cycles without history (R447). -/
def Chan.estimate (x : Chan) : Nat := x.est.getD (2000 * 1600)

/-- A channel becomes eligible after DISPATCH (R448). -/
def State.lateGrant (s : State) (n : ChIx) : State :=
  let x := s.chans[n]
  if x.granted then s
  else if s.fan.floor ≤ x.bind.prio ∨ (!s.fan.stopped ∧ (x.estimate : Int) ≤ s.fan.left) then
    let s := s.modChan n fun x => { x with granted := true }
    { s with fan := { s.fan with left := s.fan.left - x.estimate, reserved := s.fan.reserved + x.estimate } }
  else s

end Sys2Proof.Machine
end

