-- ==== Sys2Proof/Machine/Chan.lean ====
section
/-! DEFINITION. Channels (chapter 06): commands to a channel, chains and their entries, device operations, posts, checks, halts, fences. -/

namespace Sys2Proof.Machine

/-! ### Taking a command from a queue (R342, R351) -/

/-- No other I/O queue holds a command that was fetched before this one: commands are handed on in fetch order (R342). -/
def State.fetchedFirst (s : State) (c : Cmd) : Bool :=
  (allFin 511).all fun i => match s.qps[(finOf 512 (i.val + 1) : QpIx)].waiting with
    | d :: _ => decide (c.seq ≤ d.seq)
    | [] => true

/-- The command of all I/O queues fetched first, if it is of this operation and this queue, is taken. -/
def State.takeIo (s : State) (q : QpIx) (opc : Nat) (f : Cmd → State → State) : State :=
  match s.qps[q].waiting with
  | c :: rest => if q.val ≠ 0 ∧ c.opc = opc ∧ s.fetchedFirst c then f c (s.modQp q fun x => { x with waiting := rest }) else s
  | [] => s

/-- The oldest waiting admin command, if it is of this operation and no other runs in the foreground (R351). -/
def State.takeAdm (s : State) (opc : Nat) (f : Cmd → State → State) : State :=
  match s.qps[(0 : QpIx)].waiting with
  | c :: rest => if c.opc = opc ∧ s.hq.running.isNone then f c (s.modQp 0 fun x => { x with waiting := rest }) else s
  | [] => s

/-- A command that stays in the foreground ends (R351). -/
def State.endRunning (s : State) (c : Cmd) (status detail result : Nat) : State :=
  ({ s with hq := { s.hq with running := none } } : State).complete c status detail result

/-! ### Starting and ending a chain (R197, R198) -/

/-- A RUN_CHAIN starts on its channel. -/
def State.startChain (s : State) (n : ChIx) (c : Cmd) : State :=
  (s.modChan n fun x =>
    { x with state := .active, wait := .executing, depth := 0, resPend := false, next := c.addr, ent := none, op := none, waitN := 0
             ctl := 0, cont := none, cur := some c, idleN := 0, sc := { x.sc with hitCmd := false } }).lateGrant n

/-- The channel turns IDLE and its oldest pending RUN_CHAIN, if any, starts. -/
def State.chanIdle (s : State) (n : ChIx) : State :=
  let s := s.modChan n fun x =>
    { x with state := .idle, wait := .executing, depth := 0, resPend := false, ent := none, op := none, waitN := 0, cont := none, cur := none }
  match s.chans[n].pend with
  | [] => s
  | c :: rest => (s.modChan n fun x => { x with pend := rest }).startChain n c

/-- The running command of a channel completes (R203, R285). -/
def State.chanComplete (s : State) (n : ChIx) (status detail result : Nat) : State :=
  match s.chans[n].cur with
  | some c => s.complete c (if status = stOk ∧ s.chans[n].sc.hitCmd then stOkScout else status) detail result
  | none => s

/-- At an entry boundary: a new CH_CTRL comes into force (R204). -/
def Chan.boundary (x : Chan) : Chan :=
  match x.ctrlNew with
  | some (v, o) => { x with postVec := v, ovrCont := o, ctrlNew := none }
  | none => x

/-- The channel stands at its boundary and waits for the halt (R200). -/
def Chan.atBoundary (x : Chan) : Chan := { x with state := .active, wait := .executing, ent := none, op := none, waitN := 0, cont := none }

/-- What follows an entry and its post (Table 6-8). -/
def State.entryNext (s : State) (n : ChIx) (c : Cont) : State :=
  let s := s.modChan n fun x => { x.boundary with ent := none, op := none, wait := .executing, cont := none, next := c.next }
  let x := s.chans[n]
  if x.halting then s.modChan n fun x => x.atBoundary
  else if c.ends then (s.chanComplete n c.st 0 0).chanIdle n
  else if c.rest && !x.resPend then s.modChan n fun x => { x with state := .suspended }
  else s.modChan n fun x => { x with state := .active, resPend := x.resPend && !c.rest }

/-! ### Checks (R201) -/

/-- A check ends the chain at its entry. A halt that is waiting takes the boundary instead (R203, R204). -/
def State.check (s : State) (n : ChIx) (cause detail : Nat) : State :=
  if s.chans[n].halting then
    let s := s.modChan n fun x => { x.atBoundary with cause := cause, detail := detail }
    if cause = 0x20 then s else s.report 0x08 n.val (0x40 + cause) 0 0
  else
    let s := s.modChan n fun x =>
      { x.boundary with state := .check, wait := .executing, cause := cause, detail := detail, depth := 0, resPend := false
                        ent := none, op := none, waitN := 0, cont := none }
    let s := if cause = 0x20 then s.chanComplete n stBudget 0 0
      else if cause = 0x21 then s.chanComplete n stMove detail 0
      else if cause = 0x22 then s.chanComplete n stDomain detail 0
      else s.chanComplete n stProgram cause detail
    let s := s.modChan n fun x => { x with cur := none }
    if cause = 0x20 then s else s.report 0x08 n.val (0x40 + cause) 0 0

/-! ### Posts (R194, R195) -/

/-- The record of Table 6-7. -/
def postRecord (ts : Nat) (data : Word) (status ch seq : Nat) (ends susp : Bool) : List Byte :=
  leBytes 8 ts ++ leBytes 4 data.toNat ++ leBytes 1 status ++ leBytes 1 ch ++ leBytes 1 seq ++ leBytes 1 (128 + putb ends 1 + putb susp 0)

/-- The post of an entry: record, head word, vector. While the function is in D3hot a post to host memory waits, and the channel with it
(R350); one refused on the link ends the chain (R195); one of a chain that a host reset halts is discarded (R362). -/
def State.post (s : State) (n : ChIx) (c : Cont) : State :=
  let x := s.chans[n]
  let p := x.post
  let base := p.base.toNat
  let haddr := p.haddr.toNat
  let cut := x.halting && x.cut
  let host := (isHost base || isHost haddr) && !cut
  if host && s.hq.issues && !s.hq.link then s.check n 0x06 0
  else
    let seq := (p.seq + 1) % 256
    let status := if c.st = stOk ∧ x.sc.outcome = .hit then stOkScout else c.st
    let rec_ := postRecord s.now x.cx[15] status n.val seq c.ends (c.rest && !x.resPend)
    let head := (p.head + 1) % 2 ^ 32
    let s := s.muted cut fun s => (s.chanWrite (base + (p.head % 2 ^ p.size) * 16) rec_).chanWrite haddr (leBytes 4 head)
    let s := s.modChan n fun x => { x with post := { x.post with head := head, seq := seq } }
    let s := if x.postVec = 0 then s else s.reqVec (finOf 513 x.postVec)
    if host && s.hq.issues && s.hq.d3 then s.modChan n fun x => { x with state := .posting, cont := some c } else s.entryNext n c

/-- An entry's operation is complete (R175, R194): its post, then what follows. `fl` holds the flags of its last entry. -/
def State.entryEnd (s : State) (n : ChIx) (fl : BitVec 8) (flow : Bool) (next st : Nat) (forced : Bool) : State :=
  let c : Cont := ⟨next, !flow && !fl.getLsbD 0, fl.getLsbD 3, st⟩
  let x := s.chans[n]
  -- a halt already requested suppresses the post of an overrun (Table 6-10)
  if x.post.en && (fl.getLsbD 4 || forced) && !(forced && x.halting) then s.post n c else s.entryNext n c

/-! ### Entries (R170 to R174) -/

/-- The sixteen bytes of an entry. -/
def parseCce (b : List Byte) : Cce :=
  ⟨leAt b 0 1, BitVec.ofNat 8 (leAt b 1 1), BitVec.ofNat 16 (leAt b 2 2), leAt b 4 3, leAt b 7 1, leAt b 8 8⟩

def Cce.next (e : Cce) : Bool := e.flags.getLsbD 0
def Cce.span (e : Cce) : Bool := e.flags.getLsbD 1
def Cce.drop (e : Cce) : Bool := e.flags.getLsbD 2
def Cce.rest (e : Cce) : Bool := e.flags.getLsbD 3
def Cce.note (e : Cce) : Bool := e.flags.getLsbD 4
def Cce.isExecW (e : Cce) : Bool := decide (0x40 ≤ e.op) && decide (e.op ≤ 0x5F)
def Cce.isExecR (e : Cce) : Bool := decide (0x60 ≤ e.op) && decide (e.op ≤ 0x7F)
def Cce.isDev (e : Cce) : Bool := e.isExecW || e.isExecR
def Cce.isFlow (e : Cce) : Bool := [0x03, 0x04, 0x05, 0x07].contains e.op

/-- The combination of flags is forbidden (R173, R174); `r` says whether the operation that a SEG continues is an EXEC_R. -/
def Cce.badCombo (e : Cce) (r : Bool) : Bool :=
  (e.next && e.span) || (e.rest && !e.next) || ((e.rest || e.note) && e.span) ||
    (e.isFlow && (e.next || e.span || e.drop || e.rest)) ||
    (!e.isFlow && !e.isDev && e.op != 0x08 && (e.span || e.drop)) ||
    (e.isExecW && e.drop) || (e.op == 0x08 && e.drop && !r)

/-- A field that Table 6-3 marks zero is not (R172, R176). -/
def Cce.badField (e : Cce) : Bool :=
  e.rsvd != 0 || (e.mask != 0 && e.op != 0x04 && e.op != 0x05) ||
    (match e.op with
     | 0x01 => e.count != 0 || e.addr != 0
     | 0x02 => e.addr != 0
     | 0x03 | 0x04 | 0x80 => e.count != 0
     | 0x05 => e.count != 0 || e.addr != 0
     | 0x06 => decide (16 ≤ e.count) || decide (2 ^ 32 ≤ e.addr)
     | 0x07 => decide (16 ≤ e.count)
     | _ => false)

/-- The check that an entry meets when it is read, 0 for none: `cont` says that it must continue a device operation, of the kind `r`. -/
def Cce.fault (e : Cce) (cont r : Bool) : Nat :=
  let known := [0x01, 0x02, 0x03, 0x04, 0x05, 0x06, 0x07, 0x08, 0x80].contains e.op || e.isDev
  if !known || (e.op == 0x08 && !cont) then 0x01
  else if 32 ≤ e.flags.toNat then 0x02
  else if (cont && e.op != 0x08) || e.badCombo r then 0x03
  else if e.badField then 0x04
  else 0

/-- An entry is to be read next: the channel runs, and has no entry or one whose data continue. -/
def Chan.reads (x : Chan) : Bool :=
  x.state == .active && !x.halting && x.cont.isNone &&
    match x.ent with
    | none => x.op.isNone
    | some e => e.span && x.op.isSome

/-- The bytes of an entry, or the check of a failed read (R190); none where the operand is no such read. -/
def State.cceBytes (s : State) (a : Nat) (r : ReadRes) : Option (Sum Nat (List Byte)) :=
  if a % 16 ≠ 0 ∨ !chanAddrOk a 16 then some (.inl 0x05)
  else match r with
    | .refused => if isHost a then some (.inl 0x06) else some (.inr (Memory.read s.lmem a 16))
    | .ecc => if isHost a then some (.inl 0x06) else some (.inl 0x0F)
    | .ok b => if isHost a then (if b.length = 16 then some (.inr b) else none) else some (.inr (Memory.read s.lmem a 16))

/-- The entry that has been read takes its place: a device operation gathers its segments (R176). -/
def Chan.takeEntry (x : Chan) (e : Cce) : Chan :=
  let x := { x with cce := x.next, next := x.next + 16, ent := some e }
  if e.isDev then { x with op := some ⟨e.op, [⟨e.addr, e.count, e.drop⟩], false, [], 0, none⟩ }
  else if e.op = 0x08 then { x with op := x.op.map fun o => { o with segs := o.segs ++ [⟨e.addr, e.count, e.drop⟩] } }
  else x

/-- CCE_FETCH (R190). -/
def execCceFetch (n : ChIx) (r : ReadRes) (s : State) : Res :=
  let x := s.chans[n]
  if s.psu.bind = .off ∨ !x.reads then .next s
  else match s.cceBytes x.next r with
    | none => .fault (.malformed "CCE_FETCH")
    | some (.inl cause) => .next ((s.modChan n fun x => { x with cce := x.next }).check n cause 0)
    | some (.inr b) =>
      let e := parseCce b
      let cont := x.op.isSome
      let r := (x.op.map fun o => decide (0x60 ≤ o.op)).getD false
      let f := e.fault cont r
      .next (if f ≠ 0 then (s.modChan n fun x => { x with cce := x.next }).check n f 0 else s.modChan n fun x => x.takeEntry e)

/-! ### Control and flow entries -/

/-- An entry of operation `op` has been read and not begun; nothing released from the commit buffer is outstanding (R280). -/
def State.entry (s : State) (n : ChIx) (op : Nat) (f : Cce → State → State) : State :=
  let x := s.chans[n]
  match x.ent with
  | some e => if x.state == .active && x.wait == .executing && x.cont.isNone && e.op == op && (op < 0x04 || 0x07 < op || x.sc.release.isEmpty)
      then f e s else s
  | none => s

/-- A control or flow entry: the 64th in a row ends the chain before it takes effect, a self-target first (R189). -/
def State.control (s : State) (n : ChIx) (e : Cce) (self : Bool) (f : State → State) : State :=
  let x := s.chans[n]
  if self && e.addr == x.cce then s.check n 0x0A 0
  else if 63 ≤ x.ctl then s.check n 0x0B 0
  else f (s.modChan n fun x => { x with ctl := x.ctl + 1 })

/-- CCE_NOP (R172). -/
def execCceNop (n : ChIx) (s : State) : Res := live s fun s => s.entry n 0x01 fun e s =>
  s.control n e false fun s => s.entryEnd n e.flags false s.chans[n].next stOk false

/-- WAITF: the wait begins (R187). -/
def execWaitf (n : ChIx) (s : State) : Res := live s fun s => s.entry n 0x02 fun e s =>
  s.modChan n fun x => { x with wait := .waitf, waitN := Nat.max 1 e.count, ctl := 0 }

/-- WAITF_END: the n-th DISPATCH point has come (R187). -/
def execWaitfEnd (n : ChIx) (s : State) : Res := live s fun s =>
  let x := s.chans[n]
  match x.ent with
  | some e =>
    if x.state == .active && x.wait == .waitf && x.waitN == 0 && !x.halting then s.entryEnd n e.flags false x.next stOk false else s
  | none => s

/-- JUMP (R172). -/
def execJump (n : ChIx) (s : State) : Res := live s fun s => s.entry n 0x03 fun e s =>
  s.control n e true fun s => s.entryEnd n e.flags true e.addr stOk false

/-- Local-memory offset of a channel's save frame (R193). -/
def State.saveAt (s : State) (n : ChIx) (d : Nat) : Nat := s.blk.save.toNat + n.val * 0x400 + d * 0x80

/-- A CALLC or RETC checks on a save-frame error: the depth stays (R201). -/
def State.saveFault (s : State) (n : ChIx) : State :=
  let d := s.chans[n].depth
  (s.check n 0x0F 0).modChan n fun x => { x with depth := d }

/-- CALLC (R191). -/
def execCallc (n : ChIx) (ecc : Bool) (s : State) : Res := live s fun s => s.entry n 0x04 fun e s =>
  s.control n e true fun s =>
    let x := s.chans[n]
    if 8 ≤ x.depth then s.check n 0x09 0
    else if ecc then s.saveFault n
    else
      let a := s.saveAt n x.depth
      let s := s.localWrite none a (leBytes 8 x.next ++ leBytes 2 e.mask.toNat ++ zeros 54)
      let s := s.each ((allFin 16).filter fun k => e.mask.getLsbD k.val) fun k s => s.localWrite none (a + 0x40 + 4 * k.val) (leBytes 4 x.cx[k].toNat)
      (s.modChan n fun x => { x with depth := x.depth + 1 }).entryEnd n e.flags true e.addr stOk false

/-- RETC (R192). -/
def execRetc (n : ChIx) (ecc : Bool) (s : State) : Res := live s fun s => s.entry n 0x05 fun e s =>
  s.control n e false fun s =>
    let x := s.chans[n]
    if x.depth = 0 then s.check n 0x09 0
    else if ecc then s.saveFault n
    else
      let a := s.saveAt n (x.depth - 1)
      let ret := Memory.num s.lmem a 8
      let m : BitVec 16 := BitVec.ofNat 16 (Memory.num s.lmem (a + 8) 2) &&& ~~~e.mask
      let cx := (allFin 16).foldl (fun v k => if m.getLsbD k.val then v.set k (toW (Memory.num s.lmem (a + 0x40 + 4 * k.val) 4)) else v) x.cx
      (s.modChan n fun x => { x with depth := x.depth - 1, cx := cx }).entryEnd n e.flags true ret stOk false

/-- LDCX (R172). -/
def execLdcx (n : ChIx) (s : State) : Res := live s fun s => s.entry n 0x06 fun e s =>
  s.control n e false fun s =>
    (s.modChan n fun x => { x with cx := x.cx.set (finOf 16 e.count) (toW e.addr) }).entryEnd n e.flags false s.chans[n].next stOk false

/-- BRCX (R188). -/
def execBrcx (n : ChIx) (s : State) : Res := live s fun s => s.entry n 0x07 fun e s =>
  s.control n e true fun s =>
    let x := s.chans[n]
    let k : Fin 16 := finOf 16 e.count
    let v := x.cx[k]
    let s := if v = 0 then s else s.modChan n fun x => { x with cx := x.cx.set k (v - 1) }
    s.entryEnd n e.flags true (if v ≠ 0 ∧ v ≠ 1 then e.addr else x.next) stOk false

/-! ### Device operations (R176 to R185) -/

/-- Total bytes of a data area (R176). -/
def segTotal (l : List Seg) : Nat := (l.map (·.count)).sum

/-- The operation is gathered and not yet made ready. -/
def Chan.gathering (x : Chan) : Option (Op × Cce) :=
  match x.op, x.ent with
  | some o, some e => if x.state == .active && !x.halting && !o.ready && !e.span && x.cont.isNone then some (o, e) else none
  | _, _ => none

/-- The check of a complete data area, 0 for none: window, addresses, and the routine slot of the core that is bound to take it; with ANY_CORE
the core that takes the operation judges its own slot (R178). -/
def State.opFault (s : State) (n : ChIx) (o : Op) : Nat :=
  if 16384 < segTotal o.segs then 0x08
  else if o.segs.any fun g => !chanAddrOk g.addr g.count then 0x05
  else if !s.chans[n].bind.anyCore && !(s.cores[s.chans[n].bind.core].slots[(finOf 32 o.op : Fin 32)]).valid then 0x07
  else 0

/-- The engine may fetch an operation's data now: those of a timed one from DISPATCH to the STAGE deadline (R180). -/
def State.fetchOpen (s : State) (n : ChIx) (o : Op) : Bool :=
  !(s.cores[s.chans[n].bind.core].slots[(finOf 32 o.op : Fin 32)]).timed || s.tick.phase == .dispatch || s.tick.phase == .input

/-- The operation becomes ready (R177, R182). -/
def State.opReady (s : State) (n : ChIx) (data : List Byte) : State :=
  { s.modChan n fun x => { x with ctl := 0, op := x.op.map fun o => { o with ready := true, data := data, since := s.blk.order } } with
    blk := { s.blk with order := s.blk.order + 1 } }

/-- Host bytes of a data area. -/
def hostTotal (l : List Seg) : Nat := segTotal (l.filter fun g => isHost g.addr)

/-- The segments' bytes in order: local ones from memory, host ones from what the reads returned. -/
def gather (m : Mem) : List Seg → List Byte → List Byte
  | [], _ => []
  | g :: gs, h => if isHost g.addr then h.take g.count ++ gather m gs (h.drop g.count) else Memory.read m g.addr g.count ++ gather m gs h

/-- EXEC_W: the data area is gathered (R177). -/
def execExecW (n : ChIx) (r : ReadRes) (s : State) : Res :=
  match s.psu.bind, s.chans[n].gathering with
  | .off, _ => .next s
  | _, some (o, _) =>
    if 0x60 ≤ o.op then .next s
    else if s.opFault n o ≠ 0 then .next (s.check n (s.opFault n o) 0)
    else if !s.fetchOpen n o then .next s
    else match r with
      | .refused => .next (s.check n 0x06 0)
      | .ecc => .next (s.check n 0x0F 0)
      | .ok b => if b.length = hostTotal o.segs then .next (s.opReady n (gather s.lmem o.segs b)) else .fault (.malformed "EXEC_W")
  | _, none => .next s

/-- EXEC_R: the operation awaits its start (R177). -/
def execExecR (n : ChIx) (s : State) : Res := live s fun s =>
  match s.chans[n].gathering with
  | some (o, _) => if o.op < 0x60 then s else if s.opFault n o ≠ 0 then s.check n (s.opFault n o) 0 else s.opReady n []
  | none => s

/-- The slot that an operation runs on a core (R178). -/
def State.opSlot (s : State) (k : CoreIx) (o : Op) : Slot := s.cores[k].slots[(finOf 32 o.op : Fin 32)]

/-- A channel's operation may start on a core now (R180, R182, R183, R280). -/
def State.opStarts (s : State) (k : CoreIx) (n : ChIx) : Bool :=
  let x := s.chans[n]
  match x.op with
  | some o =>
    x.state == .active && !x.halting && o.ready && o.core.isNone && x.granted && x.sc.release.isEmpty && x.cont.isNone &&
      (if x.bind.anyCore then clusterOf x.bind.core == clusterOf k else x.bind.core == k) &&
      (!(s.opSlot k o).timed || s.tick.phase == .input)
  | none => false

/-- Of two operations ready for a core, the first is the one to start (R182). -/
def State.opRanks (s : State) (k : CoreIx) (m n : ChIx) : Bool :=
  let x := s.chans[m]
  let y := s.chans[n]
  match x.op, y.op with
  | some o, some p =>
    let tx := (s.opSlot k o).timed
    let ty := (s.opSlot k p).timed
    if x.bind.prio ≠ y.bind.prio then decide (y.bind.prio < x.bind.prio)
    else if s.tick.phase == .input && tx != ty then tx
    else if o.since ≠ p.since then decide (o.since < p.since)
    else decide (m < n)
  | _, _ => true

/-- The operation a free core starts next. -/
def State.bestFor (s : State) (k : CoreIx) : Option ChIx :=
  ((allFin 256).filter fun n => s.opStarts k n).foldl
    (fun b n => match b with | none => some n | some m => some (if s.opRanks k m n then m else n)) none

/-- A granted Scout run waits for the core, ahead of every operation (R265). -/
def State.scoutWaits (s : State) (k : CoreIx) : Bool := s.chans.any fun x => x.sc.run == .waiting true && x.sc.core == k

/-- The core would take the operation: it is free and no Scout run comes first. -/
def State.coreTakes (s : State) (k : CoreIx) (n : ChIx) : Bool := s.coreFree k && !s.scoutWaits k && s.bestFor k == some n

/-- A domain that automatic gating has turned off begins to power up (R454, R456). -/
def State.wake (s : State) (d : Nat) : State :=
  if s.dom d = .off ∧ s.fan.auto.getLsbD d then
    { s with fan := { s.fan with dom := s.fan.dom.set (finOf 32 d) .rising, auto := s.fan.auto &&& ~~~(1#32 <<< d) } }
  else s

/-- An operation meets a cluster that is not up (R454): gated automatically it wakes and the operation waits; powered down by request the
operation ends its chain. -/
def State.meetsCluster (s : State) (n : ChIx) (k : Fin 4) : State :=
  let d := 1 + k.val
  if s.fan.auto.getLsbD d then s.wake d
  else if s.dom d = .off ∨ s.dom d = .draining then s.check n 0x22 d
  else s

/-- ROUTINE_START: a free core starts the operation that ranks first (R179, R182); of the free cores of a cluster the lowest takes an
ANY_CORE operation. -/
def execRoutineStart (k : CoreIx) (s : State) : Res := live s fun s =>
  match s.bestFor k with
  | none => s
  | some n =>
    let x := s.chans[n]
    if (s.dom (1 + (clusterOf k).val)) != .on then s.meetsCluster n (clusterOf k)
    else if !s.coreTakes k n || (x.bind.anyCore && (allFin 16).any fun j => decide (j < k) && clusterOf j == clusterOf k && s.coreTakes j n) then s
    else match x.op with
      | none => s
      | some o =>
        let sl := s.opSlot k o
        if !sl.valid then s.check n 0x07 0
        else
          let win : Word := if s.cores[k].winB then 0x0001C000 else 0x00018000
          let s := s.modChan n fun x => { x with wait := .executing, op := some { o with core := some k } }
          let s := s.modCore k fun c => { c with winB := !c.winB, dsram := if o.op < 0x60 then Memory.write c.dsram win.toNat o.data else c.dsram }
          s.startRun k ⟨n, sl.timed, false, 0, sl.timed, win⟩ sl.entry
            (entryRegs win (toW (segTotal o.segs)) (toW n.val) (toW o.op) (lo32 s.tick.edge))

/-- The window goes to the segments without DROP (R177). -/
def State.storeWindow (s : State) (k : CoreIx) : Nat → List Seg → State
  | _, [] => s
  | a, g :: gs =>
    let s' := if g.drop then s else s.chanWrite g.addr (Memory.read s.cores[k].dsram a g.count)
    State.storeWindow s' k (a + g.count) gs

/-- A channel is Scout-enabled, with the settings in force (R264, R290). -/
def State.scoutEn (s : State) (n : ChIx) : Bool := s.blk.scEnAct && bit s.chans[n].sc.ctrlAct 31

/-- A timed operation in the triggering slot has ended normally: the channel's Scout run of the frame waits for its core (R264, R265). -/
def State.scoutTrigger (s : State) (n : ChIx) (k : CoreIx) (o : Op) : State :=
  let x := s.chans[n].sc
  if s.scoutEn n && !x.ran && !s.chans[n].halting && o.op % 32 == fld x.ctrlAct 12 8 && (s.opSlot k o).timed then
    s.modChan n fun y => { y with sc := { y.sc with run := .waiting y.sc.granted, ran := true, core := k } }
  else s

/-- A routine has ended and its device operation with it (R177, R184). Host writes of the window wait in D3hot, and the channel with them
(R350); those of a chain that a host reset halts are discarded (R362). -/
def State.opEnd (s : State) (n : ChIx) (k : CoreIx) (win : Word) : State :=
  let x := s.chans[n]
  match x.op, x.ent with
  | some o, some e =>
    let cut := x.halting && x.cut
    let toHost := decide (0x60 ≤ o.op) && !cut && o.segs.any fun g => isHost g.addr && !g.drop && g.count != 0
    if toHost && s.hq.issues && !s.hq.link then s.check n 0x06 0
    else
      let s := if 0x60 ≤ o.op then s.muted cut fun s => s.storeWindow k win.toNat o.segs else s
      let s := s.scoutTrigger n k o
      if toHost && s.hq.issues && s.hq.d3 then s.modChan n fun x => { x with wait := .data, cont := some ⟨x.next, false, false, stOk⟩ }
      else s.entryEnd n e.flags false x.next stOk false
  | _, _ => s

/-- The host interface issues requests again: channels whose writes waited go on (R350). -/
def State.chanWritesOut (s : State) (n : ChIx) : State :=
  let x := s.chans[n]
  match x.cont, x.ent with
  | some c, e =>
    if x.state == .posting then s.entryNext n c
    else match e with
      | some e => (s.modChan n fun x => { x with cont := none, wait := .executing }).entryEnd n e.flags false x.next stOk false
      | none => s
  | none, _ => s

/-- The hard cutoff ends a routine's operation (R44, R185). -/
def State.hardCutoff (s : State) (k : CoreIx) : State :=
  match s.cores[k].run with
  | none => s
  | some r =>
    let n := r.ch
    let s := s.stopCore k
    let old := s.chans[n].ovrCnt
    let s := s.modChan n fun x => { x with ovrCnt := satInc old, ovf := x.ovf || old == 0xFFFFFFFE }
    let s := s.cntSat 0x08 n.val (0x300000 + n.val * 0x100 + 0x34) old
    let ot := s.tick.ovrCnt
    let s := { s with tick := { s.tick with ovrCnt := satInc ot, ovrOvf := s.tick.ovrOvf || ot == 0xFFFFFFFE } }
    let s := s.cntSat 0x10 0 0x1034 ot
    let s := s.report 0x08 n.val 0x40 0 0
    let x := s.chans[n]
    if !x.ovrCont then s.check n 0x20 0
    else match x.ent with
      | some e => s.entryEnd n e.flags false x.next stBudget true
      | none => s

/-! ### Halts, fences and Scout aborts (R200, R202, R290) -/

/-- A Scout run that is granted, running, ended or sealed becomes an ABORT and its buffer goes; one whose grant was withheld stays CURTAILED
(Table 9-5). -/
def State.scoutAbort (s : State) (n : ChIx) (cause : Nat) : State :=
  let x := s.chans[n].sc
  let ab := s.modChan n fun x => { x with sc := { x.sc with run := .aborted cause, buf := [] } }
  match x.run with
  | .running => ab.freeCore x.core
  | .waiting false => s
  | .waiting true | .ended | .sealed => ab
  | _ => s

/-- The bound move channel gets a stop request for the channel's program (R186, R317). -/
def State.stopMove (s : State) (n : ChIx) : State :=
  match s.chans[n].bind.mc with
  | some m => if s.mcs[m].owner = .chan n then s.modMc m fun y => { y with stop := true } else s
  | none => s

/-- The channel is fenced: the program it leaves behind ends for no one (R197, R202). -/
def State.leaveMove (s : State) (n : ChIx) : State :=
  match s.chans[n].bind.mc with
  | some m => if s.mcs[m].owner = .chan n then s.modMc m fun y => { y with owner := .none } else s
  | none => s

/-- The channel's MOVE has a program on its move channel that has not ended. -/
def State.moveRuns (s : State) (n : ChIx) : Bool :=
  match s.chans[n].bind.mc with
  | some m => s.mcs[m].owner == .chan n && s.mcs[m].state != .idle && s.mcs[m].state != .check
  | none => false

/-- The halt: IDLE. CLEAR_CHANNEL completes the running and every pending command with CHANNEL_CLEARED (R200); after a reset's halt, whose
commands the reset has discarded, a RUN_CHAIN held pending since then starts (R198, R362). -/
def State.haltChan (s : State) (n : ChIx) : State :=
  let x := s.chans[n]
  let cs := x.cur.toList ++ if x.clear.isSome then x.pend else []
  let s := s.each cs fun c s => s.complete c stCleared 0 0
  let s := (s.modChan n fun x =>
    { x.boundary with pend := if x.clear.isSome then [] else x.pend, halting := false, clear := none }).chanIdle n
  match x.clear with
  | some c => s.endRunning c stOk 0 cs.length
  | none => s

/-- A channel that waits, or whose next entry has not begun, halts at once (R200). -/
def State.haltsNow (s : State) (n : ChIx) : Bool :=
  let x := s.chans[n]
  match x.state with
  | .suspended | .check | .idle => true
  | .active => (x.op.bind (·.core)).isNone && !s.moveRuns n && x.cont.isNone
  | _ => false

/-- A halt is requested: the Scout run ends, a move program is stopped, and a channel that waits halts at once. -/
def State.requestHalt (s : State) (n : ChIx) : State :=
  let s := s.scoutAbort n 0xF2
  let s := s.modChan n fun x => { x with halting := true }
  if s.haltsNow n then s.haltChan n else s.stopMove n

/-- A fence of a channel (R202, R290). -/
def State.fenceChan (s : State) (n : ChIx) : State :=
  let x := s.chans[n]
  if x.state = .fenced then s
  else
    let s := s.scoutAbort n 0xF3
    let s := match x.op.bind (·.core) with
      | some k => s.stopCore k
      | none => s
    let s := (s.stopMove n).leaveMove n
    let s := s.each (x.cur.toList ++ x.pend) fun c s => s.complete c stFenced 0 0
    let s := s.modChan n fun x =>
      { x.boundary with state := .fenced, wait := .executing, depth := 0, resPend := false, ent := none, op := none, waitN := 0, cont := none
                        cur := none, pend := [], halting := false, clear := none }
    match x.clear with
    | some c => s.endRunning c stOk 0 0
    | none => s

/-! ### Commands -/

/-- RUN_CHAIN (R198). -/
def execRunChain (q : QpIx) (s : State) : Res := live s fun s => s.takeIo q 0x01 fun c s =>
  let n : ChIx := finOf 256 c.target
  let x := s.chans[n]
  if !x.bind.bound then s.invalid c 0x06 0
  else if !s.nclReady (clusterOf x.bind.core) then s.invalid c 0x04 (8 + (clusterOf x.bind.core).val)
  else match x.state with
    | .fenced => s.complete c stFenced 0 0
    | .idle => s.startChain n c
    | _ => if 16 ≤ x.pend.length then s.invalid c 0x07 0 else s.modChan n fun x => { x with pend := x.pend ++ [c] }

/-- RESUME_CHANNEL (R199). -/
def execResumeChannel (q : QpIx) (s : State) : Res := live s fun s => s.takeIo q 0x02 fun c s =>
  let n : ChIx := finOf 256 c.target
  let x := s.chans[n]
  match x.state with
  | .fenced => s.complete c stFenced 0 0
  | .idle => s.invalid c 0x05 0
  | .suspended => (((s.modChan n fun x => { x with state := .active }).lateGrant n)).complete c stOk 0 0
  | .check => (s.complete c stOk 0 0).chanIdle n
  | .active | .posting => if x.resPend then s.invalid c 0x05 0 else (s.modChan n fun x => { x with resPend := true }).complete c stOk 0 0

/-- CLEAR_CHANNEL (R200, R359); a Scout run whose chain has ended is stopped too (R290). -/
def execClearChannel (s : State) : Res := live s fun s => s.takeAdm 0x89 fun c s =>
  let n : ChIx := finOf 256 c.target
  let x := s.chans[n]
  match x.state with
  | .idle => (s.scoutAbort n 0xF2).complete c stOk 0 0
  | .fenced =>
    let s := s.each x.pend fun c s => s.complete c stCleared 0 0
    (s.modChan n fun x => { x with pend := [] }).complete c stOk 0 x.pend.length
  | _ =>
    let s := { s with hq := { s.hq with running := some c } }
    (s.modChan n fun x => { x with clear := some c, cut := x.halting && x.cut }).requestHalt n

/-- CHANNEL_HALT: the channel has come to its boundary (R200). -/
def execChannelHalt (n : ChIx) (s : State) : Res := live s fun s =>
  let x := s.chans[n]
  if x.halting && x.state == .active && x.ent.isNone && x.op.isNone && x.cont.isNone then s.haltChan n else s

/-- The channel states in which CH_CX and the post settings may be written (R205). -/
def Chan.writable (x : Chan) : Bool := x.state == .idle || x.state == .suspended || x.state == .check || x.state == .fenced

/-- A write of CH_POST_CFG (R205): the encoding first, then the state (R515). -/
def State.wrPostCfg (s : State) (n : ChIx) (v : Word) : State :=
  if fld v 3 0 < 4 ∨ 12 < fld v 3 0 then { s with blk := { s.blk with chRej := true } }
  else if !s.chans[n].writable then { s with blk := { s.blk with chBusy := true } }
  else s.modChan n fun x => { x with post := { x.post with en := bit v 31, size := fld v 3 0, head := 0, seq := 0 } }

/-- CH_POST_CFG (R205). -/
def execChPostCfg (_a : Agent) (n : ChIx) (v : Word) (s : State) : Res := live s fun s => s.wrPostCfg n v

end Sys2Proof.Machine
end

