-- ==== Sys2Proof/Machine/Scout.lean ====
section
/-! DEFINITION. The Scout lane (chapter 09): dependency quantities and predictions, the run, sealing, the decision at the tick edge, and
what a confirmed run releases. -/

namespace Sys2Proof.Machine

/-! ### Dependency quantities (Table 9-1) -/

inductive QKind where
  | analog | count | angle | di
  deriving DecidableEq, Repr

/-- The part a port takes in a dependency set; none where it is invalid (R269). -/
def State.qKind (s : State) (p : PortIx) : Option QKind :=
  let x := s.ports[p]
  if !s.combReady (combOf p) || x.a.change.isSome || !s.groupOk p then none
  else if x.md == mAiV || x.md == mAiI then some .analog
  else if x.counts then some .count
  else if x.md == mRes && x.opt 31 30 == 0 then some .angle
  else if x.md == mDi then some .di
  else none

/-- The quantity at the tick edge just passed. -/
def QKind.value (k : QKind) (x : Port) : Int :=
  match k with
  | .analog | .di => x.i.sample
  | .count => x.c.capCnt % 2 ^ 32
  | .angle => x.c.capCnt % 2 ^ 24

/-- A quantity brought into its unit: modulo 2^32 or 2^24, saturated at the ends of the code range, or one bit (R270). -/
def QKind.norm (k : QKind) (x : Port) (v : Int) : Int :=
  match k with
  | .analog => clampI (codeRange x).1 (codeRange x).2 v
  | .count => v % 2 ^ 32
  | .angle => v % 2 ^ 24
  | .di => v % 2

/-- The deviation of a quantity from its prediction. -/
def QKind.dev (k : QKind) (q p : Int) : Int :=
  match k with
  | .count => wrapI 32 (q - p)
  | .angle => wrapI 24 (q - p)
  | _ => q - p

/-- The exact band check (R272, R281): equality for DI. -/
def QKind.inBand (k : QKind) (q p : Int) (tol : Nat) : Bool :=
  match k with
  | .di => q == p
  | _ => decide ((k.dev q p).natAbs ≤ tol)

/-- The prediction of HOLD, LINEAR or QUAD from the quantities held, newest first; where an edge is lacking the next lower order (R270). -/
def QKind.predict (k : QKind) (x : Port) (pred : Nat) (h : List Int) : Int :=
  match h with
  | [] => 0
  | x0 :: t =>
    if pred = 0 ∨ k = .di then x0
    else match pred, t with
      | 1, x1 :: _ => k.norm x (2 * x0 - x1)
      | 2, x1 :: x2 :: _ => k.norm x (3 * x0 - 3 * x1 + x2)
      | 2, x1 :: _ => k.norm x (2 * x0 - x1)
      | _, _ => x0

/-- INPUT_READY at a port: the settings, the quantity's history, and the prediction unless a routine gives it (R270, R271, R274). -/
def State.scoutPredict (s : State) (p : PortIx) : State :=
  let kind := s.qKind p
  s.modPort p fun x =>
    let x := { x with a := { x.a with scoutTol := x.r.scoutTol } }
    match kind with
    | none => { x with p := { x.p with hist := [], pred := none, fixed := false } }
    | some k =>
      let h := (k.value x :: x.p.hist).take 3
      let pr := fld x.a.scoutTol 31 28
      { x with p := { x.p with hist := h, fixed := true, pred := if pr = 3 then none else some (k.predict x pr h) } }

/-- A ROUTINE prediction is fixed: when the first run with the port in its set starts, or at SCOUT_SEAL (R271). -/
def State.scoutFix (s : State) (p : PortIx) : State :=
  let x := s.ports[p]
  match s.qKind p with
  | some k => if x.p.fixed && x.p.pred.isNone && fld x.a.scoutTol 31 28 == 3 then
      s.modPort p fun x => { x with p := { x.p with pred := some (k.norm x x.r.scoutPred.toInt) } } else s
  | none => s

/-- The ports of two dependency words, each once (R269). -/
def depPorts (w : Word × Word) : List PortIx :=
  let bytes := (List.range 4).map (fun i => fld w.1 (8 * i + 7) (8 * i)) ++ (List.range 4).map fun i => fld w.2 (8 * i + 7) (8 * i)
  ((bytes.filter fun b => decide (b < 128)).map fun b => finOf 128 b).eraseDups

/-- A Comb lacks isolator margin: its delay exceeds 8.0 ns (R282, R462). -/
def State.isoSlow (s : State) (c : CombIx) : Bool := decide (32 < s.gauge.iso[c])

/-! ### The run (R264 to R268) -/

/-- SCOUT_RUN: a triggered and granted run starts on its core (R265, R266). -/
def execScoutRun (k : CoreIx) (s : State) : Res := live s fun s =>
  match (allFin 256).find? fun n => s.chans[n].sc.run == .waiting true && s.chans[n].sc.core == k with
  | none => s
  | some n =>
    if !s.coreFree k || s.dom 5 != .on then s
    else
      let x := s.chans[n].sc
      let sl := s.cores[k].slots[(finOf 32 (fld x.ctrlAct 20 16) : Fin 32)]
      if !sl.valid then s.modChan n fun y => { y with sc := { y.sc with run := .aborted 0xF4 } }
      else
        let deps := depPorts x.depAct
        let s := s.each deps fun p s => s.scoutFix p
        let s := s.modChan n fun y => { y with sc := { y.sc with run := .running, deps := deps, cyc := 0, peak := 0, buf := [] } }
        s.startRun k ⟨n, sl.timed, true, 0, false, 0⟩ sl.entry
          (entryRegs 0 (toW deps.length) (toW n.val) 0 (lo32 (s.tick.at (16 * s.tick.len))))

/-- A write into the commit buffer; with 64 entries held the run stops and the buffer goes (R275). -/
def State.bufPush (s : State) (k : CoreIx) (n : ChIx) (e : BufEntry) (ok : State → State) : State :=
  let x := s.chans[n].sc
  if 64 ≤ x.buf.length then
    (s.modChan n fun y => { y with sc := { y.sc with run := .aborted 0xF0, buf := [] } }).freeCore k
  else ok (s.modChan n fun y => { y with sc := { y.sc with buf := x.buf ++ [e], wrote := y.sc.wrote + 1, peak := Nat.max y.sc.peak (x.buf.length + 1) } })

/-- The youngest value for a port in a buffer (R280). -/
def bufOut (b : List BufEntry) (p : PortIx) : Option Word :=
  b.foldl (fun a e => match e with | .out q v => if q = p then some v else a | _ => a) none

/-- The ports for which a buffer holds a candidate. -/
def bufPorts (b : List BufEntry) : List PortIx := (b.filterMap fun e => match e with | .out q _ => some q | _ => none).eraseDups

/-! ### Sealing (R267, R272) -/

/-- SCOUT_SEAL for one channel: with FAN_OFF set every run that was triggered is CURTAILED, ahead of any ABORT (Table 9-5). -/
def State.sealChan (s : State) (n : ChIx) : State :=
  let x := s.chans[n].sc
  let off := s.dom 5 != .on
  let set (s : State) (r : ScRun) : State := s.modChan n fun y => { y with sc := { y.sc with run := r, buf := [] } }
  match x.run with
  | .none | .curtailed | .sealed => s
  | .aborted c => set s (if off then .curtailed else .aborted c)
  | .waiting g => set s (if g && !off then .aborted 0xF1 else .curtailed)
  | .running => (set s (if off then .curtailed else .aborted 0xF1)).freeCore x.core
  | .ended =>
    if off then set s .curtailed
    else
      let s := s.each x.deps fun p s => s.scoutFix p
      let s := s.each x.deps fun p s => s.modPort p fun y => { y with p := { y.p with band := y.p.pred.map fun _ => fld y.a.scoutTol 23 0 } }
      s.modChan n fun y => { y with sc := { y.sc with run := .sealed, lastCands := some (bufPorts x.buf).length } }

/-- SCOUT_SEAL: predictions by routine are fixed, ended runs sealed, the others given up (R267, R271, R272). -/
def execScoutSeal (s : State) : Res := live s fun s =>
  s.atPoint .seal fun s =>
    let s := s.each (allFin 256) fun n s => s.sealChan n
    s.each (allFin 128) fun p s => s.scoutFix p

/-! ### The decision at the tick edge (R279 to R288) -/

/-- Where a channel's run stands at the tick edge: the outcome, with an abort's cause (Table 9-5). -/
def State.scoutDecide (s : State) (n : ChIx) : Outcome × Nat :=
  let x := s.chans[n].sc
  if !s.scoutEn n && x.run == .none then (.notRun, 0)
  else match x.run with
  | .none => (.notRun, 0)
  | .waiting false | .curtailed => (.curtailed, 0)
  | .aborted c => (.abort, c)
  | .waiting true | .running | .ended => (.abort, 0xF1)
  | .sealed =>
    let bad := x.deps.any fun p =>
      (s.qKind p).isNone || s.ports[p].modeWaits || s.ports[p].p.pred.isNone || s.isoSlow (combOf p)
    let miss := x.deps.any fun p => !s.ports[p].p.inBand
    if bad then (.depInvalid, 0) else if miss then (.miss, 0) else (.hit, 0)

/-- The window comparator: its thresholds lie within 256 LSB of the band edges, and between those limits it decides as it was seen to (R281). -/
def comparator (q v : Int) (tol : Nat) (cmp : Bool) : Bool :=
  let d := (q - v).natAbs
  if d + 256 ≤ tol then true else if tol + 256 < d then false else cmp

/-- The in-band bit of a dependency port at the edge: the comparator's for an analogue quantity, exact for the others (R281). -/
def State.scoutBand (s : State) (p : PortIx) (o : Option EdgeObs) : State :=
  match s.qKind p with
  | none => s
  | some k => s.modPort p fun x =>
    let tol := fld x.a.scoutTol 23 0
    let hit := match x.p.pred with
      | none => false
      | some v =>
        if k = .analog then
          match o with
          | some e => comparator (clampI (codeRange x).1 (codeRange x).2 (adcCode x.calSet e.sample)) v tol e.inBand
          | none => false
        else k.inBand (k.value x) v tol
    { x with p := { x.p with inBand := hit } }

/-- A Scout counter of a channel: the new value, and whether it has just saturated. -/
def scoutCnt (hit : Bool) (n : Nat) : Nat × Bool := if hit then (satInc n, n == 0xFFFFFFFE) else (n, false)

/-- Accounting of one outcome (R279, R285 to R288), and what of the buffer waits for its release (R280). -/
def State.scoutAccount (s : State) (n : ChIx) (o : Outcome) (cause : Nat) (lost : Bool) : State :=
  let x := s.chans[n].sc
  let base := 0x300000 + n.val * 0x100
  let (h, sh) := scoutCnt (o == .hit) x.hits
  let (m, sm) := scoutCnt (o == .miss || o == .depInvalid) x.misses
  let (a, sa) := scoutCnt (o == .abort || o == .curtailed) x.aborts
  let rate := if o = .hit ∨ o = .miss ∨ o = .depInvalid then ((o == .hit) :: x.rate).take 256 else x.rate
  -- the lowest-numbered port outside its band (R287)
  let out := (x.deps.filter fun p => !s.ports[p].p.inBand).foldl
    (fun b p => match b with | none => some p | some q => some (if p < q then p else q)) none
  let (mp, md, mw) := if o = .miss then
      match out with
      | some p => match s.qKind p with
        | some .analog => (p.val, x.missDev, true)
        | some k => (p.val, clampI (-8388607) 8388607 (k.dev (k.value s.ports[p]) (s.ports[p].p.pred.getD 0)), false)
        | none => (p.val, x.missDev, false)
      | none => (x.missPort, x.missDev, false)
    else (x.missPort, x.missDev, false)
  let rel := if o = .hit then x.buf.filter fun e => match e with | .out _ _ => false | _ => true else []
  let s := s.modChan n fun y =>
    { y with sc := { y.sc with outcome := o, cause := if o = .abort then cause else y.sc.cause, hits := h, misses := m, aborts := a, rate := rate
                               ovf := y.sc.ovf || sh || sm || sa, missPort := mp, missDev := md, missWait := mw, wrote := 0
                               collide := y.sc.collide || lost, release := y.sc.release ++ rel, buf := [], run := .none, ran := false
                               hitCmd := y.sc.hitCmd || (o == .hit && y.cur.isSome) } }
  let s := s.cntSat 0x08 n.val (base + 0x90) (if sh then 0xFFFFFFFE else 0)
  let s := s.cntSat 0x08 n.val (base + 0x94) (if sm then 0xFFFFFFFE else 0)
  let s := s.cntSat 0x08 n.val (0x6400 + 4 * n.val) (if sa then 0xFFFFFFFE else 0)
  if o = .abort then s.report 0x08 n.val 0x68 cause 0 else s

/-- The candidate of a port at this tick among the channels that have a HIT: higher PRIO, then the lower channel (R283); none for a Comb
without isolator margin (R282). -/
def State.scoutWinner (s : State) (hits : List ChIx) (p : PortIx) : Option ChIx :=
  if s.isoSlow (combOf p) then none
  else (hits.filter fun n => (bufOut s.chans[n].sc.buf p).isSome).foldl
    (fun b n => match b with
      | none => some n
      | some m => some (if s.chans[m].bind.prio < s.chans[n].bind.prio then n else m)) none

/-- The decision of every channel; candidates stand at their ports. The predictions of the edge stay for the exact check (R281). -/
def State.scoutTick (s : State) : State :=
  let res := (allFin 256).map fun n => (n, s.scoutDecide n)
  let hits := (res.filter fun r => r.2.1 == .hit).map (·.1)
  let wins := (((hits.map fun n => bufPorts s.chans[n].sc.buf).flatten).eraseDups).map fun p => (p, s.scoutWinner hits p)
  let s1 := s.each wins fun w s => match w.2 with
    | some n => match bufOut s.chans[n].sc.buf w.1 with
      | some v => s.modPort w.1 fun x => { x with o := { x.o with cand := some (v, n) } }
      | none => s
    | none => s
  let s2 := s1.each res fun r s' => s'.scoutAccount r.1 r.2.1 r.2.2
    (r.2.1 == .hit && wins.any fun w => (bufOut s.chans[r.1].sc.buf w.1).isSome && w.2.isSome && w.2 != some r.1)
  { s2 with ports := s2.ports.map fun x =>
      { x with p := { x.p with prevPred := x.p.band.bind fun b => x.p.pred.map fun v => (v, b), pred := none, band := none, fixed := false } } }

/-- The last outcome was decided on a sealed run: HIT, MISS or DEP_INVALID. -/
def Scout.judged (x : Scout) : Bool := x.outcome == .hit || x.outcome == .miss || x.outcome == .depInvalid

/-- INPUT_READY: the converted sample is checked against the exact band, and a pending deviation is written (R281, R287). -/
def State.scoutGrey (s : State) (n : ChIx) : State :=
  let x := s.chans[n].sc
  if !x.judged then s
  else
    let grey := x.deps.any fun p =>
      match s.qKind p, s.ports[p].p.prevPred with
      | some .analog, some (v, tol) => QKind.analog.inBand s.ports[p].i.sample v tol != s.ports[p].p.inBand
      | _, _ => false
    let y := s.ports[(finOf 128 x.missPort : PortIx)]
    let dev := clampI (-8388607) 8388607 (y.i.sample - (y.p.prevPred.map (·.1)).getD 0)
    s.modChan n fun z => { z with sc := { z.sc with grey := z.sc.grey || grey, missDev := if x.missWait then dev else z.sc.missDev, missWait := false } }

/-- INPUT_READY: the written Scout settings come into force (R290). -/
def State.scoutSettings (s : State) : State :=
  { s with blk := { s.blk with scEnAct := s.blk.scEn }
           chans := s.chans.map fun x => { x with sc := { x.sc with ctrlAct := x.sc.ctrl, depAct := (x.sc.depA, x.sc.depB) } } }

/-! ### Release (R280, R290) -/

/-- A released mezzanine entry failed (R290). -/
def State.mzRelErr (s : State) : State := { s with blk := { s.blk with scMz := true } }.report 0x14 0 0x98 0 0

/-- The mezzanine is usable: MZ_STAT.PRESENT (R520). -/
def State.mzPresent (s : State) : Bool := s.mezz.fitted && s.mezz.idOk && s.dom 7 == .on

/-- A transaction enters the bus (R260). -/
def State.mzGrant (s : State) (k : CoreIx) (rel : Option ChIx) (cmd a b : Word) : State :=
  let old := s.mezz.txn
  let s := { s with mezz := { s.mezz with bus := some k, rel := rel, last := k, txn := satInc old, ovf := s.mezz.ovf || old == 0xFFFFFFFE } }
  (s.cntSat 0x14 0 0xD008 old).emit (.mezz cmd a b)

/-- Released entries of a channel are performed in program order; a mezzanine entry holds the rest until the card has answered. -/
def State.runRelease (s : State) (n : ChIx) : Nat → State
  | 0 => s
  | f + 1 =>
    let x := s.chans[n].sc
    let drop (s : State) : State := s.modChan n fun y => { y with sc := { y.sc with release := y.sc.release.drop 1 } }
    match x.release with
    | [] => s
    | .store a b :: _ => State.runRelease ((drop s).perform x.core a b) n f
    | .cx k v :: _ => State.runRelease ((drop s).modChan n fun y => { y with cx := y.cx.set k v }) n f
    | .out _ _ :: _ => State.runRelease (drop s) n f
    | .mz c a b :: _ =>
      if !s.mzPresent then State.runRelease (drop s).mzRelErr n f
      else if s.mezz.bus.isSome then s
      else s.mzGrant x.core (some n) c a b

/-- Every channel's released entries, from T+40 ns (R280). -/
def State.releaseScout (s : State) : State := s.each (allFin 256) fun n s => s.runRelease n 65

end Sys2Proof.Machine
end

