-- ==== Sys2Proof/Machine/Flags.lean ====
section
/-! DEFINITION. What Zorath computes beside plain word arithmetic: saturation, comparisons, division and the flags of COP_STAT, and the
mathematical coprocessors within their limits (R220, R228, R259). Zorath has no condition flags. -/

namespace Sys2Proof.Machine

/-! ### Integer results (R220) -/

/-- Clamp to 0x8000_0000 through 0x7FFF_FFFF. -/
def sat32 (x : Int) : Word := BitVec.ofInt 32 (clampI (-2147483648) 2147483647 x)

/-- The signed and the unsigned product, high halves. -/
def mulHi (a b : Word) : Word := BitVec.ofInt 32 (a.toInt * b.toInt / 2 ^ 32)
def mulHiU (a b : Word) : Word := BitVec.ofNat 32 (a.toNat * b.toNat / 2 ^ 32)

/-- Leading zeros, 32 for zero. -/
def clz32 (a : Word) : Word := if a = 0 then 32 else toW (31 - Nat.log2 a.toNat)

/-- 1 or 0. -/
def flag (b : Bool) : Word := if b then 1 else 0

/-! ### Division (R259) -/

/-- A division: quotient, remainder, overflow, by zero. -/
def divide (a b : Word) : Word × Word × Bool × Bool :=
  if b = 0 then (if a.toInt < 0 then 0x80000000 else 0x7FFFFFFF, a, false, true)
  else if a = 0x80000000 ∧ b = 0xFFFFFFFF then (0x7FFFFFFF, 0, true, false)
  else (BitVec.ofInt 32 (Int.tdiv a.toInt b.toInt), BitVec.ofInt 32 (Int.tmod a.toInt b.toInt), false, false)

/-- The flags that a division leaves (Table 8-6): they only set. -/
def Ctrl.divFlags (c : Ctrl) (ovf dz : Bool) : Ctrl := { c with ovf := c.ovf || ovf, dz := c.dz || dz }

/-! ### Angle, sine and magnitude (R259)

The result lies within the stated limit of the exact value at an error that is a free value (log entry 9). -/

/-- ATAN2 of y and x: within 2^-26 turn, 0 at the origin. -/
def atan2 (y x : Word) : Word :=
  if x = 0 ∧ y = 0 then 0 else BitVec.ofInt 32 (angleFloor x.toInt y.toInt + clampI (-63) 64 (Config.atan2Err y x))

/-- SINCOS: within 4 LSB. -/
def sinCos (cosine : Bool) (w : Word) : Word :=
  let (c, s) := cosSinFloor w
  BitVec.ofInt 32 ((if cosine then c else s) + clampI (-3) 4 (Config.sincosErr cosine w))

/-- MAG: within 1 LSB. -/
def magnitude (x y : Word) : Word :=
  let n := (x.toInt * x.toInt + y.toInt * y.toInt).toNat
  let r := isqrt n
  BitVec.ofInt 32 ((r : Int) + clampI (if r * r = n ∧ 0 < r then -1 else 0) 1 (Config.magErr x y))

end Sys2Proof.Machine
end

