-- ==== Sys2Proof/Machine/Operands.lean ====
section
/-! DEFINITION. The operand forms of Zorath: instruction words (Table 7-7, R231, R247, R256), the
address forms with modulo and bit-reversed windows (R221 to R224). -/

namespace Sys2Proof.Machine

/-! ### Instruction words (R217) -/

def encRRR (op : Nat) (gd ga gb : BitVec 5) (func : BitVec 10) : Word := (BitVec.ofNat 7 op) ++ gd ++ ga ++ gb ++ func
def encRRI (op : Nat) (gd ga : BitVec 5) (imm : BitVec 15) : Word := (BitVec.ofNat 7 op) ++ gd ++ ga ++ imm
def encRI (op : Nat) (gd : BitVec 5) (imm : BitVec 20) : Word := (BitVec.ofNat 7 op) ++ gd ++ imm
def encJ (op : Nat) (off : BitVec 25) : Word := (BitVec.ofNat 7 op) ++ off
def encC (op : Nat) (g : BitVec 5) (cr : BitVec 10) : Word := (BitVec.ofNat 7 op) ++ g ++ (0 : BitVec 10) ++ cr
def encS (op : Nat) (sz step : BitVec 2) (gv gd : BitVec 5) (c : Bool) : Word :=
  (BitVec.ofNat 7 op) ++ sz ++ step ++ gv ++ gd ++ (BitVec.ofBool c) ++ (0 : BitVec 10)
def encN (op : Nat) : Word := (BitVec.ofNat 7 op) ++ (0 : BitVec 25)
def encT (code : Byte) : Word := (BitVec.ofNat 7 0x47) ++ (0 : BitVec 17) ++ code

/-! ### Addresses (R221 to R224) -/

/-- Sign extension of an immediate to 32 bits. -/
def sx15 (i : BitVec 15) : Word := i.signExtend 32

/-- The window bound to a base register: base, size exponent, bit-reversed, element exponent (R223). -/
def Core.window (c : Core) (r : BitVec 5) : Option (Nat × Nat × Bool × Nat) :=
  if h : 20 ≤ r.toNat ∧ r.toNat ≤ 23 then
    let k : Fin 4 := ⟨r.toNat - 20, by omega⟩
    let f := c.cr.mwCfg[k]
    if bit f 7 then some (c.cr.mwBase[k].toNat / 2 ^ fld f 4 0 * 2 ^ fld f 4 0, fld f 4 0, bit f 6, fld f 9 8) else none
  else none

/-- The address of a base-and-offset form (R221, R223). -/
def Core.ea (c : Core) (ga : BitVec 5) (imm : BitVec 15) : Word :=
  let x := c.rd ga + sx15 imm
  match c.window ga with
  | some (b, sz, _, _) => toW (b + x.toNat % 2 ^ sz)
  | none => x

/-- The low n bits reversed. -/
def revBits (v : Nat) : Nat → Nat
  | 0 => 0
  | n + 1 => (v % 2) * 2 ^ n + revBits (v / 2) n

/-- The base after a post-modify form (R222 to R224). -/
def Core.updated (c : Core) (ga : BitVec 5) (imm : BitVec 15) : Word :=
  let x := c.rd ga
  let m := sx15 imm
  match c.window ga with
  | none => x + m
  | some (b, sz, false, _) => toW (b + (x + m).toNat % 2 ^ sz)
  | some (b, sz, true, es) =>
    let kb := sz - es
    let off := (x - toW b).toNat % 2 ^ sz
    let inc := (m.sshiftRight es).toNat % 2 ^ kb
    let idx := revBits ((revBits (off / 2 ^ es) kb + revBits inc kb) % 2 ^ kb) kb
    toW (b + idx * 2 ^ es + off % 2 ^ es)

/-- Target of a relative jump or branch (R228, R229). -/
def relTarget (pc : Word) (off : Int) : Word := pc + BitVec.ofInt 32 (4 * off)

end Sys2Proof.Machine
end

