-- ==== Sys2Proof/Machine/Zexec.lean ====
section
/-! DEFINITION. How a core executes an instruction: what comes before and after it (R228, R229, R237, R240, R247 to R250), taking a trap
(R252 to R254) and the return from it (R255), and the end of a routine (R233). -/

namespace Sys2Proof.Machine

/-! ### Traps -/

/-- The trap registers and the flow of a core that enters a trap (R253, R241, R245, R251). -/
def Core.enterTrap (c : Core) (etpc erpc w : Word) (cause code : Nat) (ebad : Word) (ds rpt : Bool) : Core :=
  let d := c.landAll
  let d := match c.rpt with
    | some r => match r.res with
      | some v => if rpt then d.wr (r.word.extractLsb' 11 5) v else d
      | none => d
    | none => d
  { d with slot := none, rpt := none, hold := none
           cr := { d.cr with rsv := none, lact := false }
           tr := { d.tr with rpt := rpt, plact := c.cr.lact, ds := ds, code := code, cause := cause, etpc := etpc &&& 0xFFFC
                             erpc := erpc &&& 0xFFFC, ebad := ebad, einstr := w } }

/-- An unhandled trap ends the routine (R254): in the Scout lane the run becomes an ABORT (R277), outside it the chain meets a check and
nothing of the entry stands (R201). -/
def State.trapOut (s : State) (k : CoreIx) (r : Run) : State :=
  let c := s.cores[k]
  let cause := c.tr.cause
  if r.scout then
    let s := s.modCore k fun c => { c with tr := { cause := cause }, fresh := [], diag := (s.now, r.ch.val, { cause := cause }) }
    (s.modChan r.ch fun x => { x with sc := { x.sc with run := .aborted cause, buf := [] } }).freeCore k
  else
    let s := s.modCore k fun c => { c with diag := (s.now, r.ch.val, c.tr) }
    (s.stopCore k).check r.ch 0x0D (cause + putb c.tr.inTrap 7)

/-- Trap entry (R253): the handler, or the end of the routine. -/
def State.trapAt (s : State) (k : CoreIx) (etpc erpc w : Word) (cause code : Nat) (ebad : Word) (ds rpt : Bool) : State :=
  let s := (s.modCore k fun c => c.enterTrap etpc erpc w cause code ebad ds rpt).charge k 8
  let c := s.cores[k]
  if c.tr.en && !c.tr.inTrap then s.modCore k fun c => { c with tr := { c.tr with inTrap := true }, pc := c.tr.tvec }
  else match c.run with
    | some r => s.trapOut k r
    | none => s

/-- The instruction at the program counter traps (R219, R253); in a delay slot ERPC is the branch (R241), on a repeat pair both addresses are
the RPT's (R245). -/
def State.trap (s : State) (k : CoreIx) (w : Word) (cause code : Nat) (ebad : Word) : State :=
  let c := s.cores[k]
  match c.slot with
  | some (b, _, _) => s.trapAt k c.pc b w cause code ebad true false
  | none => s.trapAt k c.pc (if cause = 0x0B then c.pc + 4 else c.pc) w cause code ebad false c.rpt.isSome

/-! ### Before and after an instruction -/

/-- The core executes instructions: a routine runs and nothing holds it. -/
def Core.ready (c : Core) : Bool := c.run.isSome && c.hold.isNone

/-- The hardware loop after the instruction at LEND (R247, R248): the core, and where it continues. -/
def Core.loopEnd (c : Core) (last nxt : Word) : Core × Word :=
  if c.cr.lact && last == c.cr.lend then
    let d := c.landDue
    let lc := d.rd 29 - 1
    let d := d.wr 29 lc
    if lc ≠ 0 then (d, d.cr.lstart) else ({ d with cr := { d.cr with lact := false } }, last + 4)
  else (c, nxt)

/-- A branch, JMP or JR that leaves the loop body clears LACT (R250). -/
def Core.leaveLoop (c : Core) (t : Word) : Core :=
  if c.cr.lact && !(decide (c.cr.lstart ≤ t) && decide (t ≤ c.cr.lend)) then { c with cr := { c.cr with lact := false } } else c

/-- The instruction at `last` is complete: where the core continues, after a delay slot at the branch's successor, at LEND with the next pass;
`slot` is the delay slot that a branch opens. Going on past 0x0000_FFFC raises the instruction-address trap (R229); EBAD is 0 where a taken
branch leads there (R253). -/
def State.retireAt (s : State) (k : CoreIx) (w last : Word) (jump : Option Word) (slot : Option (Word × Word × Bool)) : State :=
  let c := s.cores[k]
  let taken := (c.slot.map fun x => x.2.2).getD false
  let (c, nxt) := match c.slot with
    | some (_, t, taken) => (if taken then c.leaveLoop t else c, t)
    | none => (c, jump.getD (last + 4))
  let (c, nxt) := { c with slot := slot }.loopEnd last nxt
  if 0xFFFC < nxt then
    let bad : Word := if taken then 0 else nxt
    (s.modCore k fun _ => { c with pc := last, slot := none }).trapAt k last last w 0x02 0 bad false false
  else s.modCore k fun _ => { c with pc := nxt }

def State.retire (s : State) (k : CoreIx) (w : Word) : State := s.retireAt k w s.cores[k].pc none none
def State.retireTo (s : State) (k : CoreIx) (w t : Word) : State := s.retireAt k w s.cores[k].pc (some t) none

/-- An instruction executes on a running core. `flow` marks those that stand neither in a delay slot nor at LEND (R240, R249). -/
def State.instr (s : State) (k : CoreIx) (w : Word) (flow : Bool) (body : State → State) : State :=
  let c := s.cores[k]
  if !c.ready || c.rpt.isSome then s
  else
    let s := (s.modCore k fun c => c.begin).charge k 1
    let atEnd := c.cr.lact && c.pc == c.cr.lend
    if (flow && (c.slot.isSome || atEnd)) || (atEnd && c.slot.isSome) then s.trap k w 0x01 0 0 else body s

/-- An instruction that writes one register seen by the next. -/
def State.alu (s : State) (k : CoreIx) (w : Word) (gd : BitVec 5) (f : Core → Word) : State :=
  s.instr k w false fun s => (s.modCore k fun c => c.wr gd (f c)).retire k w

/-- An instruction whose one result lands after d further instructions. -/
def State.slow (s : State) (k : CoreIx) (w : Word) (gd : BitVec 5) (d : Nat) (f : Core → Word) : State :=
  s.instr k w false fun s => (s.modCore k fun c => c.later gd (f c) d).retire k w

/-- The lane of the running routine: its channel and whether it is a Scout run. -/
def State.lane (s : State) (k : CoreIx) : Option (ChIx × Bool) := s.cores[k].run.map fun r => (r.ch, r.scout)

def State.scoutLane (s : State) (k : CoreIx) : Bool := s.cores[k].inScout

/-! ### The end of a routine (R233, R267) -/

/-- The routine has ended and its stores have arrived. -/
def State.routineEnd (s : State) (k : CoreIx) : State :=
  match s.cores[k].run with
  | none => s
  | some r =>
    if r.scout then
      (s.freeCore k).modChan r.ch fun x =>
        { x with sc := { x.sc with run := if x.sc.run = .running then .ended else x.sc.run } }
    else (((s.drainAll k).freeCore k)).opEnd r.ch k r.win

/-! ### Stores (R181, R216, R275) -/

/-- A store is posted, or waits for room in the buffer. -/
def State.postStore (s : State) (k : CoreIx) (w : Word) (x : Nat) (bytes : List Byte) (regs : List (BitVec 5 × Word)) (nxt : Option Word) : State :=
  if s.cores[k].full then s.holdCore k (.full w (posted x bytes) regs nxt)
  else (s.modCore k fun c => (c.post (posted x bytes)).wrs regs).retireAt k w s.cores[k].pc nxt none

/-- A store in the Scout lane goes into the commit buffer (R275). -/
def State.bufStore (s : State) (k : CoreIx) (n : ChIx) (x : Nat) (bytes : List Byte) (f : State → State) : State :=
  match locAt x with
  | .port a => match combRegAt a with
    | .port p _ => s.bufPush k n (.out p (toW (ofLeBytes bytes))) f
    | _ => f s
  | _ => s.bufPush k n (.store x bytes) fun s =>
    f (if x < 0x20000 then s.modCore k fun c => { c with fresh := c.fresh ++ [⟨x, [], bytes, 3⟩] } else s)

/-- The trap of a store, 0 for none (R213, R214, R276): Scout ban, misalignment, address. -/
def State.storeTrap (s : State) (k : CoreIx) (a : Word) (size : Nat) (wordForm : Bool) : Nat :=
  let l := locOf s.cores[k].cr.lmw a.toNat
  let isPort := match l with | .port _ => true | _ => false
  if s.scoutLane k && isPort && !isStageKey (a.toNat / 4 * 4) then 0x0A
  else if a.toNat % size ≠ 0 then 0x03
  else if (l == .none) || (isPort && !wordForm) then 0x04
  else 0

/-- A staging write by an untimed routine stops it; the write is discarded (R181). -/
def State.untimedStage (s : State) (k : CoreIx) (x : Nat) : Bool :=
  match s.cores[k].run with
  | some r => isStageKey x && !r.timed && !r.scout
  | none => false

/-- The check of an untimed staging write. -/
def State.stageCheck (s : State) (k : CoreIx) : State :=
  match s.cores[k].run with
  | some r => (s.stopCore k).check r.ch 0x0E 0
  | none => s

/-- A store instruction: what it writes at `a`, the registers it writes beside, and where it continues. -/
def State.store (s : State) (k : CoreIx) (w a : Word) (size : Nat) (v : Word) (regs : List (BitVec 5 × Word)) (nxt : Option Word)
    (wordForm : Bool) : State :=
  let t := s.storeTrap k a size wordForm
  let x := (locOf s.cores[k].cr.lmw a.toNat).key
  let bytes := leBytes size v.toNat
  if t ≠ 0 then s.trap k w t 0 (if t = 0x0A then 0 else a)
  else if s.untimedStage k x then s.stageCheck k
  else match s.lane k with
    | some (n, true) => s.bufStore k n x bytes fun s => (s.modCore k fun c => c.wrs regs).retireAt k w s.cores[k].pc nxt none
    | _ => s.postStore k w x bytes regs nxt

/-! ### Loads (R213 to R215, R274) -/

/-- What PC_IN_VAL, PC_CNT_LO and PC_CNT_HI return in the Scout lane for a dependency port: 0 where it has no prediction (R274). -/
def State.scoutValue (s : State) (p : PortIx) (ofs : Nat) : Word :=
  let x := s.ports[p]
  match s.qKind p, x.p.pred with
  | some k, some v =>
    if ofs / 4 = 0x06 then (if k = .di then toWi (3 * v) else toWi v)
    else
      let c : Int := match k with
        | .count | .angle => x.c.regCnt + k.dev v (k.value x)
        | _ => x.c.regCnt
      if ofs / 4 = 0x0C then BitVec.ofInt 32 c else toW (put x.c.regWraps 16 + ((c % 2 ^ 48) / 2 ^ 32).toNat)
  | _, _ => 0

/-- A port-block read in the Scout lane: none for the SCOUT trap (Table 9-3). -/
def State.scoutPortRead (s : State) (k : CoreIx) (n : ChIx) (p : PortIx) (ofs : Nat) : Option (Word × State) :=
  let i := ofs / 4
  let dep := s.chans[n].sc.deps.contains p
  if i = 0x06 ∨ i = 0x0C ∨ i = 0x0D then (if dep then some (s.scoutValue p ofs, s) else none)
  else if i = 0x07 ∨ i = 0x08 ∨ i = 0x0E ∨ i = 0x0F ∨ i = 0x10 ∨ i = 0x11 then none
  else if i = 0x04 then some ((bufOut s.chans[n].sc.buf p).getD s.ports[p].r.outSet, s)
  else some (s.portRead (.needle k) p ofs)

/-- A port-space word read at the moment it is issued (R42, R214, R274): earlier stores to port space have taken effect (R216). -/
def State.portLoad (s : State) (k : CoreIx) (a : Nat) : Option (Word × State) :=
  match s.lane k with
  | some (n, true) => match combRegAt a with
    | .port p o => s.scoutPortRead k n p o
    | _ => some (s.regionRead (.needle k) a)
  | _ => some ((s.drainRegion k (.port 0)).regionRead (.needle k) a)

/-- The trap of a load, 0 for none. -/
def State.loadTrap (s : State) (k : CoreIx) (a : Word) (size : Nat) (wordForm : Bool) : Nat :=
  let l := locOf s.cores[k].cr.lmw a.toNat
  let port := match l with | .port x => some x | _ => none
  let banned := match port with | some x => (s.portLoad k (x / 4 * 4)).isNone | none => false
  if s.scoutLane k && banned then 0x0A
  else if a.toNat % size ≠ 0 then 0x03
  else if (l == .none) || (port.isSome && !wordForm) then 0x04
  else 0

/-- The value of loaded bytes. -/
def loadVal (bs : List Byte) (sgn : Bool) : Word :=
  let n := ofLeBytes bs
  let m := 2 ^ (8 * bs.length)
  if sgn ∧ m ≤ 2 * n then BitVec.ofInt 32 ((n : Int) - m) else toW n

/-- A load instruction: data SRAM answers at once, every other region holds the core (R215). -/
def State.load (s : State) (k : CoreIx) (w : Word) (gd : BitVec 5) (a : Word) (size : Nat) (sgn wordForm : Bool)
    (base : Option (BitVec 5 × Word)) : State :=
  let t := s.loadTrap k a size wordForm
  let l := locOf s.cores[k].cr.lmw a.toNat
  if t ≠ 0 then s.trap k w t 0 (if t = 0x0A then 0 else a)
  else match l with
    | .data _ => (s.modCore k fun c => (c.wrs base.toList).later gd (loadVal (s.coreBytes k l size) sgn) 3).retire k w
    | .port x => match s.portLoad k x with
      | some (v, s) => s.holdCore k (.load w gd a size sgn (some v) base)
      | none => s
    | _ => s.holdCore k (.load w gd a size sgn none base)

/-! ### Atomics (R226, R227) -/

/-- The effect of TAS (0), LR (1) or SC (2) on its word, with the result for gd: in data SRAM too one indivisible access, after the earlier
stores to the region; RSV keeps its granule when the reservation goes. -/
def State.atomic (s : State) (k : CoreIx) (op : Nat) (a v : Word) : Word × State :=
  let l := locOf s.cores[k].cr.lmw a.toNat
  let s := s.drainRegion k l
  let old := loadVal (s.coreBytes k l 4) false
  let put_ (s : State) (v : Word) : State := s.arrive k (posted l.key (leBytes 4 v.toNat))
  let g := a.toNat / 32
  match op with
  | 0 => (old, put_ s 1)
  | 1 => (old, s.modCore k fun c => { c with cr := { c.cr with rsv := some (g, c.cr.lmw), granule := g } })
  | _ =>
    let ok := (s.cores[k].cr.rsv.map (·.1)) == some g
    let s := s.modCore k fun c => { c with cr := { c.cr with rsv := none } }
    if ok then (0, put_ s v) else (1, s)

/-- TAS, LR and SC (R226): banned in the Scout lane (R276), not in port space. -/
def State.atomicInstr (s : State) (k : CoreIx) (w : Word) (op : Nat) (gd : BitVec 5) (a v : Word) : State :=
  let l := locOf s.cores[k].cr.lmw a.toNat
  let isPort := match l with | .port _ => true | _ => false
  if s.scoutLane k then s.trap k w 0x0A 0 0
  else if a.toNat % 4 ≠ 0 then s.trap k w 0x03 0 a
  else if (l == .none) || isPort then s.trap k w 0x04 0 a
  else match l with
    | .data _ => let (r, s) := s.atomic k op a v; (s.modCore k fun c => c.later gd r 3).retire k w
    | _ => s.holdCore k (.atom w op gd a v)

/-! ### Returns (R229, R230, R255) -/

/-- A bad target (R229). -/
def badTarget (t : Word) : Bool := t.toNat % 4 != 0 || decide (0xFFFC < t.toNat)

/-- RET with the popped word. -/
def State.retWith (s : State) (k : CoreIx) (w t : Word) : State :=
  if badTarget t then s.trap k w 0x02 0 0 else (s.modCore k fun c => c.wr 31 (c.rd 31 + 4)).retireTo k w t

/-- ERET restores LACT and leaves the handler (R255). -/
def State.trapReturn (s : State) (k : CoreIx) (w : Word) : State :=
  let c := s.cores[k]
  if !c.tr.inTrap then s.trap k w 0x01 0 0
  else ((s.charge k 3).modCore k fun c =>
    { c with tr := { c.tr with inTrap := false }, cr := { c.cr with lact := c.tr.plact } }).retireTo k w c.tr.erpc

end Sys2Proof.Machine
end

