-- ==== Sys2Proof/Machine/Zstr.lean ====
section
/-! DEFINITION. The string instructions of Zorath, alone and as elements of a repeat pair (R231, R243 to R246). -/

namespace Sys2Proof.Machine

/-- Element size in bytes (R231). -/
def strSize (sz : BitVec 2) : Nat := 2 ^ sz.toNat

/-- Stride of the pointers (R231). -/
def strStep (sz step : BitVec 2) : Word :=
  let e : Int := strSize sz
  BitVec.ofInt 32 ((if step.getLsbD 1 then 2 else 1) * (if step.getLsbD 0 then -e else e))

/-- One element: alone an instruction of its own, in a repeat pair the next element of it (R243, R246). -/
def State.element (s : State) (k : CoreIx) (w : Word) (body : State → State) : State :=
  let c := s.cores[k]
  if undefinedWord w then s
  else match c.rpt with
    | none => s.instr k w false body
    | some r => if c.ready && r.word == w then body (s.charge k 1) else s

/-- The trap of an element's access (R213, R214, R274, R276): cause, 0 for none, and faulting address. SCOPY of words reaches port space. -/
def State.strTrap (s : State) (k : CoreIx) (size : Nat) (words : Bool) (reads writes : List Word) : Nat × Word :=
  let scout (a : Word) (rd : Bool) : Bool := (if rd then s.loadTrap k a size words else s.storeTrap k a size words) == 0x0A
  let acc (a : Word) : Bool := match locOf s.cores[k].cr.lmw a.toNat with
    | .none => true
    | .port _ => !words
    | _ => false
  let all := reads ++ writes
  if (reads.any fun a => scout a true) || writes.any fun a => scout a false then (0x0A, 0)
  else match all.find? fun a => a.toNat % size != 0 with
    | some a => (0x03, a)
    | none => match all.find? acc with
      | some a => (0x04, a)
      | none => (0, 0)

/-- The low bytes of a value that an element holds. -/
def strMask (size : Nat) (v : Word) : Word := toW (v.toNat % 2 ^ (8 * size))

/-- What an element does, read off its word (R231): the addresses read, in order. -/
def Core.strReads (c : Core) (w : Word) : List Word :=
  match fld w 31 25 with
  | 0x4C | 0x4F => [c.rd 26]
  | 0x4E => [c.rd 26, c.rd 27]
  | _ => []

/-- The address written. -/
def Core.strWrites (c : Core) (w : Word) : List Word := if fld w 31 25 = 0x4C ∨ fld w 31 25 = 0x4D then [c.rd 27] else []

/-- The pointers after the element. -/
def Core.strPtrs (c : Core) (w : Word) : List (BitVec 5 × Word) :=
  let step := strStep (w.extractLsb' 23 2) (w.extractLsb' 21 2)
  let op := fld w 31 25
  (if op = 0x4D then [] else [(26, c.rd 26 + step)]) ++ (if op = 0x4F then [] else [(27, c.rd 27 + step)])

/-- The value written, or the result, from what the reads gave. -/
def Core.strValue (c : Core) (w : Word) (got : List Word) : Word :=
  let size := strSize (w.extractLsb' 23 2)
  let cond := w.getLsbD 10
  let x := got.headD 0
  let y := strMask size (c.rd (w.extractLsb' 16 5))
  match fld w 31 25 with
  | 0x4C => x
  | 0x4D => y
  | 0x4E => flag ((x == got.getD 1 0) != cond)
  | _ => flag ((x == y) != cond)

/-- An element is complete, with the result of SCMP and SSEEK: the pointers step; alone the instruction ends, in a pair the count falls and the
pair may end (R243). -/
def State.elemDone (s : State) (k : CoreIx) (w : Word) (res : Option Word) : State :=
  let c := s.cores[k]
  let gd := w.extractLsb' 11 5
  let ptrs := c.strPtrs w
  let fin (c : Core) : Core := match res with | some v => c.later gd v 3 | none => c
  match c.rpt with
  | none => (s.modCore k fun c => fin (c.wrs ptrs)).retire k w
  | some r =>
    let rc := c.rd 28 - 1
    if (rc == 0) || res == some 0 then
      (s.modCore k fun c => { fin ((c.wrs ptrs).wr 28 rc) with rpt := none }).retireAt k w (r.pc + 4) none none
    else s.modCore k fun c => { (c.wrs ptrs).wr 28 rc with rpt := some { r with res := res } }

/-- An element write (R181, R216, R275): posted, or held until the buffer has room. -/
def State.elemWrite (s : State) (k : CoreIx) (w : Word) (a v : Word) : State :=
  let x := (locOf s.cores[k].cr.lmw a.toNat).key
  let bytes := leBytes (strSize (w.extractLsb' 23 2)) v.toNat
  if s.untimedStage k x then s.stageCheck k
  else match s.lane k with
    | some (n, true) => s.bufStore k n x bytes fun s => s.elemDone k w none
    | _ => if s.cores[k].full then s.holdCore k (.elemFull w (posted x bytes)) else (s.modCore k fun c => c.post (posted x bytes)).elemDone k w none

/-- An element goes on with what its first reads gave (R215): a read in data SRAM answers at once, every other one holds the core. -/
def State.elemGo (s : State) (k : CoreIx) (w : Word) : Nat → List Word → State
  | 0, _ => s
  | f + 1, got =>
    let c := s.cores[k]
    match (c.strReads w)[got.length]? with
    | some a =>
      let l := locOf c.cr.lmw a.toNat
      match l with
      | .data _ => State.elemGo s k w f (got ++ [loadVal (s.coreBytes k l (strSize (w.extractLsb' 23 2))) false])
      | .port x => match s.portLoad k x with
        | some (v, s) => s.holdCore k (.elem w got (some v))
        | none => s
      | _ => s.holdCore k (.elem w got none)
    | none =>
      let v := c.strValue w got
      match c.strWrites w with
      | a :: _ => s.elemWrite k w a v
      | [] => s.elemDone k w (some v)

/-- Cycles that a load from a region holds its core, given what the environment measured (Table 7-6). -/
def holdCycles (l : Loc) (stall : Nat) : Nat :=
  match l with
  | .port _ => 12
  | .cluster _ => 1 + stall % 4
  | .lmem _ => stall
  | _ => 0

/-- The access that holds an element gives its value, or the memory-error trap on an uncorrectable error of local memory (R215). -/
def State.elemBack (s : State) (k : CoreIx) (w : Word) (got : List Word) (val : Option Word) (stall : Nat) (ecc : Bool) : State :=
  let a := (s.cores[k].strReads w).getD got.length 0
  let l := locOf s.cores[k].cr.lmw a.toNat
  let isL := match l with | .lmem _ => true | _ => false
  let s := s.unholdFor k (holdCycles l stall)
  if ecc && isL then s.trap k w 0x06 0 a
  else
    let s := s.drainRegion k l
    s.elemGo k w 3 (got ++ [val.getD (loadVal (s.coreBytes k l (strSize (w.extractLsb' 23 2))) false)])

/-- A string instruction. -/
def State.string (s : State) (k : CoreIx) (w : Word) : State :=
  s.element k w fun s =>
    let c := s.cores[k]
    let (t, bad) := s.strTrap k (strSize (w.extractLsb' 23 2)) (fld w 31 25 == 0x4C && fld w 24 23 == 2) (c.strReads w) (c.strWrites w)
    if t ≠ 0 then s.trap k w t 0 bad else s.elemGo k w 3 []

/-- The step field of a string instruction (R231). -/
def stepField (two down : Bool) : BitVec 2 := BitVec.ofBool two ++ BitVec.ofBool down

/-- SCOPY (R231). -/
def execScopy (k : CoreIx) (sz : BitVec 2) (two down : Bool) (s : State) : Res := liveR s fun s =>
  s.string k (encS 0x4C sz (stepField two down) 0 0 false)

/-- SFILL (R231). -/
def execSfill (k : CoreIx) (sz step : BitVec 2) (gv : BitVec 5) (s : State) : Res := liveR s fun s => s.string k (encS 0x4D sz step gv 0 false)

/-- SCMP (R231). -/
def execScmp (k : CoreIx) (sz : BitVec 2) (two down : Bool) (gd : BitVec 5) (c : Bool) (s : State) : Res := liveR s fun s =>
  s.string k (encS 0x4E sz (stepField two down) 0 gd c)

/-- SSEEK (R231). -/
def execSseek (k : CoreIx) (sz : BitVec 2) (two down : Bool) (gv gd : BitVec 5) (c : Bool) (s : State) : Res := liveR s fun s =>
  s.string k (encS 0x4F sz (stepField two down) gv gd c)

end Sys2Proof.Machine
end

