-- ==== Sys2Proof/Machine/Zmem.lean ====
section
/-! DEFINITION. Loads, stores and atomics of Zorath (R221 to R227), the return of a held load (R215) and the arrival of a posted store
(R216). -/

namespace Sys2Proof.Machine

/-! ### Forms -/

/-- A base-and-offset load (R221). -/
def State.loadForm (s : State) (k : CoreIx) (op : Nat) (gd ga : BitVec 5) (imm : BitVec 15) (size : Nat) (sgn : Bool) : State :=
  let w := encRRI op gd ga imm
  s.instr k w false fun s => s.load k w gd (s.cores[k].ea ga imm) size sgn (op == 0x28) none

/-- A post-modify load; one whose gd is its ga is illegal (R222). -/
def State.loadPost (s : State) (k : CoreIx) (op : Nat) (gd ga : BitVec 5) (imm : BitVec 15) (size : Nat) (sgn : Bool) : State :=
  let w := encRRI op gd ga imm
  s.instr k w false fun s =>
    if gd = ga then s.trap k w 0x01 0 0
    else s.load k w gd (s.cores[k].rd ga) size sgn (op == 0x30) (some (ga, s.cores[k].updated ga imm))

/-- A base-and-offset store (R221). -/
def State.storeForm (s : State) (k : CoreIx) (op : Nat) (gs ga : BitVec 5) (imm : BitVec 15) (size : Nat) : State :=
  let w := encRRI op gs ga imm
  s.instr k w false fun s => s.store k w (s.cores[k].ea ga imm) size (s.cores[k].rd gs) [] none (op == 0x2D)

/-- A post-modify store (R222). -/
def State.storePostForm (s : State) (k : CoreIx) (op : Nat) (gs ga : BitVec 5) (imm : BitVec 15) (size : Nat) : State :=
  let w := encRRI op gs ga imm
  s.instr k w false fun s =>
    s.store k w (s.cores[k].rd ga) size (s.cores[k].rd gs) [(ga, s.cores[k].updated ga imm)] none (op == 0x31)

/-! ### Instructions -/

/-- LW (R221). -/
def execLw (k : CoreIx) (gd ga : BitVec 5) (imm : BitVec 15) (s : State) : Res := liveR s fun s => s.loadForm k 0x28 gd ga imm 4 false

/-- LH (R221). -/
def execLh (k : CoreIx) (gd ga : BitVec 5) (imm : BitVec 15) (s : State) : Res := liveR s fun s => s.loadForm k 0x29 gd ga imm 2 true

/-- LHU (R221). -/
def execLhu (k : CoreIx) (gd ga : BitVec 5) (imm : BitVec 15) (s : State) : Res := liveR s fun s => s.loadForm k 0x2A gd ga imm 2 false

/-- LB (R221). -/
def execLb (k : CoreIx) (gd ga : BitVec 5) (imm : BitVec 15) (s : State) : Res := liveR s fun s => s.loadForm k 0x2B gd ga imm 1 true

/-- LBU (R221). -/
def execLbu (k : CoreIx) (gd ga : BitVec 5) (imm : BitVec 15) (s : State) : Res := liveR s fun s => s.loadForm k 0x2C gd ga imm 1 false

/-- SW (R221). -/
def execSw (k : CoreIx) (gs ga : BitVec 5) (imm : BitVec 15) (s : State) : Res := liveR s fun s => s.storeForm k 0x2D gs ga imm 4

/-- SH (R221). -/
def execSh (k : CoreIx) (gs ga : BitVec 5) (imm : BitVec 15) (s : State) : Res := liveR s fun s => s.storeForm k 0x2E gs ga imm 2

/-- SB (R221). -/
def execSb (k : CoreIx) (gs ga : BitVec 5) (imm : BitVec 15) (s : State) : Res := liveR s fun s => s.storeForm k 0x2F gs ga imm 1

/-- LW.P (R222). -/
def execLwP (k : CoreIx) (gd ga : BitVec 5) (imm : BitVec 15) (s : State) : Res := liveR s fun s => s.loadPost k 0x30 gd ga imm 4 false

/-- SW.P (R222). -/
def execSwP (k : CoreIx) (gs ga : BitVec 5) (imm : BitVec 15) (s : State) : Res := liveR s fun s => s.storePostForm k 0x31 gs ga imm 4

/-- LH.P (R222). -/
def execLhP (k : CoreIx) (gd ga : BitVec 5) (imm : BitVec 15) (s : State) : Res := liveR s fun s => s.loadPost k 0x32 gd ga imm 2 true

/-- SH.P (R222). -/
def execShP (k : CoreIx) (gs ga : BitVec 5) (imm : BitVec 15) (s : State) : Res := liveR s fun s => s.storePostForm k 0x33 gs ga imm 2

/-- TAS (R226). -/
def execTas (k : CoreIx) (gd ga : BitVec 5) (s : State) : Res := liveR s fun s =>
  let w := encRRR 0x34 gd ga 0 0
  s.instr k w false fun s => s.atomicInstr k w 0 gd (s.cores[k].rd ga) 0

/-- LR (R226). -/
def execLr (k : CoreIx) (gd ga : BitVec 5) (s : State) : Res := liveR s fun s =>
  let w := encRRR 0x35 gd ga 0 0
  s.instr k w false fun s => s.atomicInstr k w 1 gd (s.cores[k].rd ga) 0

/-- SC (R226). -/
def execSc (k : CoreIx) (gd ga gb : BitVec 5) (s : State) : Res := liveR s fun s =>
  let w := encRRR 0x36 gd ga gb 0
  s.instr k w false fun s => s.atomicInstr k w 2 gd (s.cores[k].rd ga) (s.cores[k].rd gb)

/-! ### The return of a load and the arrival of a store -/

/-- A held load gives its value, or the memory-error trap on an uncorrectable error of local memory (R215). -/
def State.loadBack (s : State) (k : CoreIx) (stall : Nat) (ecc : Bool) : State :=
  match s.cores[k].hold with
  | some (.load w gd a size sgn val base) =>
    let l := locOf s.cores[k].cr.lmw a.toNat
    let isL := match l with | .lmem _ => true | _ => false
    let s := s.unholdFor k (holdCycles l stall)
    if ecc && isL then s.trap k w 0x06 0 a
    else
      let s := s.drainRegion k l
      let v := val.getD (loadVal (s.coreBytes k l size) sgn)
      (s.modCore k fun c => (c.wrs base.toList).later gd v 3).retire k w
  | some (.atom w op gd a v) =>
    let l := locOf s.cores[k].cr.lmw a.toNat
    let isL := match l with | .lmem _ => true | _ => false
    let s := s.unholdFor k (holdCycles l stall)
    if ecc && isL && decide (op < 2) then s.trap k w 0x06 0 a
    else if op = 3 then
      let s := s.drainRegion k l
      s.retWith k w (loadVal (s.coreBytes k l 4) false)
    else
      let (r, s) := s.atomic k op a v
      (s.modCore k fun c => c.later gd r 3).retire k w
  | some (.elem w got val) => s.elemBack k w got val stall ecc
  | _ => s

/-- LOAD_RETURN (R215). -/
def execLoadReturn (k : CoreIx) (stall : Nat) (ecc : Bool) (s : State) : Res := liveR s fun s => s.loadBack k stall ecc

/-- What waited for the store buffer goes on: a store that found it full, SYNC, DONE (R216, R232, R233). -/
def State.storesMoved (s : State) (k : CoreIx) : State :=
  let c := s.cores[k]
  match c.hold with
  | some (.full w st regs nxt) =>
    if c.full then s else ((s.unhold k).modCore k fun c => (c.post st).wrs regs).retireAt k w c.pc nxt none
  | some (.elemFull w st) => if c.full then s else ((s.unhold k).modCore k fun c => c.post st).elemDone k w none
  | some .sync => if c.sb.isEmpty then (s.unhold k).retire k (encN 0x50) else s
  | some .done => if c.sb.isEmpty then (s.unhold k).routineEnd k else s
  | _ => s

/-- STORE_ARRIVAL (R216): the oldest buffered store of its region reaches its target. -/
def execStoreArrival (k : CoreIx) (i : Fin 8) (s : State) : Res := liveR s fun s =>
  let sb := s.cores[k].sb
  match sb[i.val]? with
  | none => s
  | some st =>
    if (sb.take i.val).any fun x => (locAt x.addr).sameRegion (locAt st.addr) then s
    else ((s.modCore k fun c => { c with sb := sb.eraseIdx i.val }).arrive k st).storesMoved k

/-- CORE_ECC (R415): an uncorrectable error of a Needle SRAM, with the address in DATA (Table 14-2). -/
def execCoreEcc (k : CoreIx) (addr : Word) (s : State) : Res := live s fun s => s.report 0x09 k.val 0xA8 0 addr

end Sys2Proof.Machine
end

