-- ==== Sys2Proof/Machine/Zflow.lean ====
section
/-! DEFINITION. Branches, jumps, calls, the end of a routine, software traps, the hardware loop and the repeat prefix of Zorath (R228 to R233,
R242 to R255). -/

namespace Sys2Proof.Machine

/-! ### Compare and branch (R228) -/

/-- A compare-and-branch: the delay slot follows in every case; where execution then continues is decided here. -/
def State.branch (s : State) (k : CoreIx) (op : Nat) (ga gb : BitVec 5) (off : BitVec 15) (cond : Word → Word → Bool) : State :=
  let w := encRRI op ga gb off
  s.instr k w true fun s =>
    let c := s.cores[k]
    let taken := cond (c.rd ga) (c.rd gb)
    s.retireAt k w c.pc none (some (c.pc, if taken then relTarget c.pc off.toInt else c.pc + 8, taken))

/-- BEQ (R228): branch if equal. -/
def execBeq (k : CoreIx) (ga gb : BitVec 5) (off : BitVec 15) (s : State) : Res := live s fun s => s.branch k 0x38 ga gb off (fun a b => a == b)

/-- BNE (R228): branch if not equal. -/
def execBne (k : CoreIx) (ga gb : BitVec 5) (off : BitVec 15) (s : State) : Res := live s fun s => s.branch k 0x39 ga gb off (fun a b => a != b)

/-- BLT (R228): branch if signed less. -/
def execBlt (k : CoreIx) (ga gb : BitVec 5) (off : BitVec 15) (s : State) : Res := live s fun s => s.branch k 0x3A ga gb off (fun a b => a.slt b)

/-- BGE (R228): branch if signed greater or equal. -/
def execBge (k : CoreIx) (ga gb : BitVec 5) (off : BitVec 15) (s : State) : Res := live s fun s => s.branch k 0x3B ga gb off (fun a b => !a.slt b)

/-- BLTU (R228): branch if unsigned less. -/
def execBltu (k : CoreIx) (ga gb : BitVec 5) (off : BitVec 15) (s : State) : Res := live s fun s => s.branch k 0x3C ga gb off (fun a b => a.ult b)

/-- BGEU (R228): branch if unsigned greater or equal. -/
def execBgeu (k : CoreIx) (ga gb : BitVec 5) (off : BitVec 15) (s : State) : Res := live s fun s => s.branch k 0x3D ga gb off (fun a b => !a.ult b)

/-! ### Jumps and calls (R229, R230) -/

/-- JMP and JR: the target is checked; one outside the loop body ends the loop (R250). -/
def State.jump (s : State) (k : CoreIx) (w t : Word) : State :=
  if badTarget t then s.trap k w 0x02 0 0 else (s.modCore k fun c => c.leaveLoop t).retireTo k w t

/-- JMP (R229). -/
def execJmp (k : CoreIx) (off : BitVec 25) (s : State) : Res := live s fun s =>
  let w := encJ 0x3E off
  s.instr k w true fun s => s.jump k w (relTarget s.cores[k].pc off.toInt)

/-- JR (R229). -/
def execJr (k : CoreIx) (ga : BitVec 5) (s : State) : Res := live s fun s =>
  let w := encRRR 0x3F 0 ga 0 0
  s.instr k w true fun s => s.jump k w (s.cores[k].rd ga)

/-- A stack address lies in data or cluster SRAM (R230). -/
def inStack (a : Word) : Bool := decide (a.toNat < 0x28000)

/-- CALL and CALLR push the return address (R230); they are forbidden in the Scout lane (R276). -/
def State.callTo (s : State) (k : CoreIx) (w t : Word) : State :=
  let c := s.cores[k]
  let sp := c.rd 31 - 4
  if s.scoutLane k then s.trap k w 0x0A 0 0
  else if badTarget t then s.trap k w 0x02 0 0
  else if sp.toNat % 4 ≠ 0 then s.trap k w 0x03 0 sp
  else if sp < c.cr.spLim then s.trap k w 0x05 0 sp
  else if !inStack sp then s.trap k w 0x04 0 sp
  else s.postStore k w sp.toNat (leBytes 4 (c.pc + 4).toNat) [(31, sp)] (some t)

/-- CALL (R230). -/
def execCall (k : CoreIx) (off : BitVec 25) (s : State) : Res := live s fun s =>
  let w := encJ 0x40 off
  s.instr k w true fun s => s.callTo k w (relTarget s.cores[k].pc off.toInt)

/-- CALLR (R230). -/
def execCallr (k : CoreIx) (ga : BitVec 5) (s : State) : Res := live s fun s =>
  let w := encRRR 0x41 0 ga 0 0
  s.instr k w true fun s => s.callTo k w (s.cores[k].rd ga)

/-- RET pops its target (R230); a slot in cluster SRAM holds the core as a load does (R215). -/
def execRet (k : CoreIx) (s : State) : Res := live s fun s =>
  let w := encN 0x42
  s.instr k w true fun s =>
    let sp := s.cores[k].rd 31
    if s.scoutLane k then s.trap k w 0x0A 0 0
    else if sp.toNat % 4 ≠ 0 then s.trap k w 0x03 0 sp
    else if !inStack sp then s.trap k w 0x04 0 sp
    else if sp.toNat < 0x20000 then s.retWith k w (loadVal (s.coreBytes k (.data sp.toNat) 4) false)
    else s.holdCore k (.atom w 3 0 sp 0)

/-! ### Waiting for stores, the end of a routine, traps (R232, R233, R255) -/

/-- SYNC (R232): at once in the Scout lane (R276). -/
def execSync (k : CoreIx) (s : State) : Res := live s fun s =>
  let w := encN 0x50
  s.instr k w false fun s =>
    if s.scoutLane k || s.cores[k].sb.isEmpty then s.retire k w else s.holdCore k .sync

/-- DONE (R233): waits for the earlier stores; at once in the Scout lane, whose stores stand in the commit buffer (R267). -/
def execDone (k : CoreIx) (s : State) : Res := live s fun s =>
  s.instr k (encN 0x46) true fun s =>
    let s := s.modCore k fun c => { c with cr := { c.cr with rsv := none } }
    if s.scoutLane k || s.cores[k].sb.isEmpty then s.routineEnd k else s.holdCore k .done

/-- TRAP (R232): the software trap with its code. -/
def execTrap (k : CoreIx) (code : Byte) (s : State) : Res := live s fun s =>
  let w := encT code
  s.instr k w true fun s => s.trap k w 0x0B code.toNat 0

/-- ERET (R255). -/
def execEret (k : CoreIx) (s : State) : Res := live s fun s =>
  let w := encN 0x48
  s.instr k w true fun s => s.trapReturn k w

/-- UNDEFINED_OPCODE (R218): a word that has no meaning raises the illegal-instruction trap. -/
def execUndefinedOpcode (k : CoreIx) (w : Word) (s : State) : Res := live s fun s =>
  if undefinedWord w then s.instr k w false fun s => s.trap k w 0x01 0 0 else s

/-! ### Hardware loop and repeat prefix (R242, R243, R247) -/

/-- LOOP (R247). -/
def execLoop (k : CoreIx) (ga : BitVec 5) (n : BitVec 15) (s : State) : Res := live s fun s =>
  let w := encRRI 0x4A 0 ga n
  s.instr k w true fun s =>
    let c := s.cores[k]
    let e := c.pc.toNat + 4 * n.toNat
    if n.toNat = 0 ∨ 4096 < n.toNat ∨ c.cr.lact then s.trap k w 0x01 0 0
    else if 0xFFFC < e then s.trap k w 0x02 0 0
    else
      let cnt := c.rd ga
      (s.modCore k fun c => { c.wr 29 cnt with cr := { c.cr with lstart := c.pc + 4, lend := toW e, lact := cnt != 0 } }).retireTo k w
        (if cnt = 0 then toW (e + 4) else c.pc + 4)

/-- The word after an RPT makes a legal pair (R242). -/
def rptLegal (next : Word) : Bool :=
  let op := fld next 31 25
  decide (0x4C ≤ op) && decide (op ≤ 0x4F) && !undefinedWord next &&
    (let gv := fld next 20 16
     let gd := fld next 15 11
     !(decide (26 ≤ gv) && decide (gv ≤ 28)) && !(decide (26 ≤ gd) && decide (gd ≤ 28)))

/-- RPT (R242, R243): opens the pair with the word at the next address; with rc = 0 the pair ends at once. -/
def execRpt (k : CoreIx) (next : Word) (s : State) : Res := live s fun s =>
  let w := encN 0x49
  s.instr k w true fun s =>
    let c := s.cores[k]
    if !rptLegal next || decide (0xFFFC ≤ c.pc.toNat) then s.trap k w 0x01 0 0
    else if c.rd 28 = 0 then s.retireAt k next (c.pc + 4) none none
    else s.modCore k fun c => { c with rpt := some ⟨c.pc, next, none⟩ }

end Sys2Proof.Machine
end

