-- ==== Sys2Proof/Machine/Zsys.lean ====
section
/-! DEFINITION. The control registers of a Needle core (R209 to R211, R263): MFC and MTC. -/

namespace Sys2Proof.Machine

/-- The youngest value for cx j in a commit buffer (R275). -/
def bufCx (b : List BufEntry) (j : Fin 16) : Option Word :=
  b.foldl (fun a e => match e with | .cx i v => if i = j then some v else a | _ => a) none

/-- Cycles of 600 MHz from now to the next STAGE deadline (Table 7-4); once this frame's has passed, to that of the frame that opens next. -/
def State.stageLeft (s : State) : Nat :=
  let t := s.tick
  let left : Int := 16 * t.len - 6000 - t.ofs
  let next : Int := 16 * t.upcoming
  cyclesIn (if t.phase = .stage ∨ t.phase = .seal then left + next else left).toNat % 2 ^ 20

/-- cx j as the running operation sees it (R211, R275). -/
def State.cxRead (s : State) (k : CoreIx) (j : Fin 16) : Word :=
  match s.lane k with
  | some (n, sc) =>
    let x := s.chans[n]
    (if sc then bufCx x.sc.buf j else none).getD x.cx[j]
  | none => 0

/-- The fields of a core's own control registers (Tables 7-4 and 8-6); none where the number is undefined or is read elsewhere. -/
def Core.crPeek (c : Core) (cr : Nat) : Option Word :=
  let t := c.tr
  let r := c.cr
  match cr with
  | 0x005 => some r.nowHi
  | 0x008 => some (toW r.lmw)
  | 0x009 => some r.spLim
  | 0x00A => some (toW (32 * r.granule + putb r.rsv.isSome 0))
  | 0x020 => some (r.mwBase[0]) | 0x021 => some (r.mwCfg[0])
  | 0x022 => some (r.mwBase[1]) | 0x023 => some (r.mwCfg[1])
  | 0x024 => some (r.mwBase[2]) | 0x025 => some (r.mwCfg[2])
  | 0x026 => some (r.mwBase[3]) | 0x027 => some (r.mwCfg[3])
  | 0x030 => some (t.tvec + toW (putb t.en 0))
  | 0x031 => some (toW (putb t.rpt 3 + putb t.plact 2 + putb t.ds 1 + putb t.inTrap 0))
  | 0x032 => some (toW (put t.code 8 + t.cause))
  | 0x033 => some t.etpc
  | 0x034 => some t.erpc
  | 0x035 => some t.ebad
  | 0x036 => some t.einstr
  | 0x038 => some r.lstart
  | 0x039 => some r.lend
  | 0x03A => some (toW (putb r.lact 0))
  | 0x040 => some (toW (putb r.und 2 + putb r.ovf 1 + putb r.dz 0))
  | 0x048 => some (toW r.mzTimeout)
  | _ => none

/-- What MFC reads, and its capture (Table 7-3); none for an undefined number. -/
def State.crRead (s : State) (k : CoreIx) (cr : Nat) : Option (Word × State) :=
  let c := s.cores[k]
  if cr = 0x000 then some (toW k.val, s)
  else if cr = 0x001 then some (toW ((c.run.map (·.ch.val)).getD 0), s)
  else if cr = 0x002 then some (toW ((c.run.map (·.cyc)).getD 0 % 2 ^ 20), s)
  else if cr = 0x003 then some (toW s.stageLeft, s)
  else if cr = 0x004 then some (lo32 s.now, s.modCore k fun c => { c with cr := { c.cr with nowHi := hi32 s.now } })
  else if cr = 0x006 then
    some (lo32 s.tick.edge, s.modCore k fun c => { c with cr := { c.cr with edgeHi := some (hi32 s.tick.edge) } })
  else if cr = 0x007 then some (c.cr.edgeHi.getD (hi32 s.tick.edge), s)
  else if 0x010 ≤ cr ∧ cr < 0x020 then some (s.cxRead k (finOf 16 (cr - 0x010)), s)
  else if cr = 0x049 then some (toW (put c.cr.mzErr 16 + putb s.mzPresent 0), s)
  else (c.crPeek cr).map fun v => (v, s)

/-- A window configuration that puts no reserved encoding into a field (Table 7-4). -/
def mwCfgOk (v : Word) : Bool :=
  fld v 9 8 != 3 && (!bit v 7 || (decide (2 ≤ fld v 4 0) && decide (fld v 4 0 ≤ 17)))

/-- What MTC writes into a core's own control registers; none where it is illegal (R210). -/
def Core.crWrite (c : Core) (cr : Nat) (v : Word) : Option Core :=
  let r := c.cr
  let mwB (i : Fin 4) : Option Core := some { c with cr := { r with mwBase := r.mwBase.set i v } }
  let mwC (i : Fin 4) : Option Core := if mwCfgOk v then some { c with cr := { r with mwCfg := r.mwCfg.set i (v &&& 0x3DF) } } else none
  match cr with
  | 0x008 => if fld v 3 0 ≤ 10 then some { c with cr := { r with lmw := fld v 3 0 } } else none
  | 0x009 => some { c with cr := { r with spLim := v &&& 0xFFFFFFFC } }
  | 0x020 => mwB 0 | 0x021 => mwC 0 | 0x022 => mwB 1 | 0x023 => mwC 1
  | 0x024 => mwB 2 | 0x025 => mwC 2 | 0x026 => mwB 3 | 0x027 => mwC 3
  | 0x030 => some { c with tr := { c.tr with tvec := v &&& 0xFFFC, en := bit v 0 } }
  | 0x034 => some { c with tr := { c.tr with erpc := v &&& 0xFFFC } }
  | 0x038 => some { c with cr := { r with lstart := v &&& 0xFFFC } }
  | 0x039 => some { c with cr := { r with lend := v &&& 0xFFFC } }
  | 0x040 => some { c with cr := { r with und := r.und && !bit v 2, ovf := r.ovf && !bit v 1, dz := r.dz && !bit v 0 } }
  | 0x048 => if fld v 15 0 = 0 then none else some { c with cr := { r with mzTimeout := fld v 15 0 } }
  | _ => none

/-- MFC (R232, R210): an undefined number is illegal. -/
def execMfc (k : CoreIx) (gd : BitVec 5) (cr : BitVec 10) (s : State) : Res := live s fun s =>
  let w := encC 0x44 gd cr
  s.instr k w false fun s =>
    match s.crRead k cr.toNat with
    | none => s.trap k w 0x01 0 0
    | some (v, s) => (s.modCore k fun c => c.wr gd v).retire k w

/-- MTC (R232, R210, R211): a cx register of the running channel, or a register of the core; in the Scout lane a cx write is buffered (R275). -/
def execMtc (k : CoreIx) (ga : BitVec 5) (cr : BitVec 10) (s : State) : Res := live s fun s =>
  let w := encC 0x45 ga cr
  s.instr k w false fun s =>
    let v := s.cores[k].rd ga
    let n := cr.toNat
    if 0x010 ≤ n ∧ n < 0x020 then
      let j : Fin 16 := finOf 16 (n - 0x010)
      match s.lane k with
      | some (ch, true) => s.bufPush k ch (.cx j v) fun s => s.retire k w
      | some (ch, false) => (s.modChan ch fun x => { x with cx := x.cx.set j v }).retire k w
      | none => s
    else match s.cores[k].crWrite n v with
      | none => s.trap k w 0x01 0 0
      | some c => (s.modCore k fun _ => c).retire k w

end Sys2Proof.Machine
end

