-- ==== Sys2Proof/Machine/Zcop.lean ====
section
/-! DEFINITION. The built-in coprocessors (R256 to R259) and the mezzanine coprocessor (R260 to R262, R534). -/

namespace Sys2Proof.Machine

/-! ### Ports (R257, R258) -/

/-- The register that a PRD index selects, as an offset in the port block (R257). -/
def prdOfs (i : Nat) : Nat := ([0x18, 0x1C, 0x30, 0x34, 0x38, 0x3C, 0x14, 0x20, 0x24] : List Nat).getD i 0

/-- PRD (R257): what a port-space load issued now returns, without a stall. -/
def execPrd (k : CoreIx) (gd ga : BitVec 5) (sel : PrdSel) (s : State) : Res := liveR s fun s =>
  let w := encRRR 0x60 gd ga sel.gb (sel.ix.zeroExtend 10)
  s.instr k w false fun s =>
    let p := s.cores[k].rd ga
    if 8 < sel.ix.toNat then s.trap k w 0x01 0 0
    else if h : p.toNat < 128 then
      match s.portLoad k (portAddr ⟨p.toNat, h⟩ (prdOfs sel.ix.toNat) - 0x01000000) with
      | some (v, s) => (s.modCore k fun c => c.later gd v 4).retire k w
      | none => s.trap k w 0x0A 0 0
    else s.trap k w 0x04 0 p

/-- PWR (R258): a staging write, as a store to PC_OUT_SET. -/
def execPwr (k : CoreIx) (ga gb : BitVec 5) (s : State) : Res := liveR s fun s =>
  let w := encRRR 0x61 0 ga gb 0
  s.instr k w false fun s =>
    let p := s.cores[k].rd ga
    if h : p.toNat < 128 then
      s.store k w (toW (0x80000000 + portAddr ⟨p.toNat, h⟩ 0x10 - 0x01000000)) 4 (s.cores[k].rd gb) [] none true
    else s.trap k w 0x04 0 p

/-! ### Mathematics (R259) -/

/-- A coprocessor operation: its flags and its result. -/
def State.coproc (s : State) (k : CoreIx) (w : Word) (gd : BitVec 5) (flags : Core → Ctrl) (f : Core → Word) : State :=
  s.instr k w false fun s => (s.modCore k fun c => { c with cr := flags c }.later gd (f c) 4).retire k w

/-- ATAN2 (R259). -/
def execAtan2 (k : CoreIx) (gd ga gb : BitVec 5) (s : State) : Res := live s fun s =>
  s.coproc k (encRRR 0x64 gd ga gb 0) gd (fun c => { c.cr with und := c.cr.und || (c.rd ga == 0 && c.rd gb == 0) })
    fun c => Sys2Proof.Machine.atan2 (c.rd ga) (c.rd gb)

/-- SINCOS (R259). -/
def execSincos (k : CoreIx) (gd ga gb : BitVec 5) (cosine : Bool) (s : State) : Res := live s fun s =>
  s.coproc k (encRRR 0x65 gd ga gb (if cosine then 1 else 0)) gd (fun c => c.cr) fun c => sinCos cosine (c.rd ga)

/-- MAG (R259). -/
def execMag (k : CoreIx) (gd ga gb : BitVec 5) (s : State) : Res := live s fun s =>
  s.coproc k (encRRR 0x66 gd ga gb 0) gd (fun c => c.cr) fun c => magnitude (c.rd ga) (c.rd gb)

/-- DIV (R259). -/
def execDiv (k : CoreIx) (gd ga gb : BitVec 5) (remainder : Bool) (s : State) : Res := live s fun s =>
  s.coproc k (encRRR 0x67 gd ga gb (if remainder then 1 else 0)) gd
    (fun c => let (_, _, o, z) := divide (c.rd ga) (c.rd gb); c.cr.divFlags o z)
    fun c => let (q, r, _, _) := divide (c.rd ga) (c.rd gb); if remainder then r else q

/-! ### The mezzanine (R260, R261) -/

/-- A core waits for the grant of its transaction. -/
def Core.mzWaits (c : Core) : Option (Word × Word × Word) :=
  match c.hold with
  | some (.mezz _ _ cmd a b false) => some (cmd, a, b)
  | _ => none

/-- The next transaction enters the free bus: the cores in round-robin order, a released entry of a core's channel before the core's own. -/
def State.mzNext (s : State) : State :=
  if s.mezz.bus.isSome || !s.mzPresent then s
  else
    let order := (List.range 16).map fun i => (finOf 16 (s.mezz.last.val + 1 + i) : CoreIx)
    let rel (k : CoreIx) : Option ChIx := (allFin 256).find? fun n => s.chans[n].sc.core == k &&
      (match s.chans[n].sc.release with | .mz _ _ _ :: _ => true | _ => false)
    match order.find? fun k => (rel k).isSome || s.cores[k].mzWaits.isSome with
    | none => s
    | some k =>
      match rel k, s.cores[k].mzWaits with
      | some n, _ => s.runRelease n 65
      | none, some (cmd, a, b) =>
        let s := s.chargeHeld k
        (s.modCore k fun c => { c with
          hold := match c.hold with | some (.mezz g w x y z _) => some (.mezz g w x y z true) | h => h
          held := (s.now, 0) }).mzGrant k none cmd a b
      | none, none => s

/-- The command word (Table 8-4). -/
def mzCmd (op : BitVec 4) (func : BitVec 10) (k : CoreIx) : Word := op ++ func ++ (BitVec.ofNat 4 k.val) ++ (0 : BitVec 14)

/-- MZ (R260): undefined without an identified card, MZ_DOWN with its domain down, otherwise a transaction that holds the core; in the
Scout lane it is buffered, and forbidden with a result (R275, R276). -/
def execMz (k : CoreIx) (op : BitVec 4) (gd ga gb : BitVec 5) (func : BitVec 10) (s : State) : Res := liveR s fun s =>
  let w := encRRR (0x70 + op.toNat) gd ga gb func
  s.instr k w false fun s =>
    let c := s.cores[k]
    let cmd := mzCmd op func k
    if s.mezz.id = 0 then s.trap k w 0x01 0 0
    else if s.scoutLane k && gd != 0 then s.trap k w 0x0A 0 0
    else if s.dom 7 ≠ .on then s.trap k w 0x09 0 0
    else match s.lane k with
      | some (n, true) => s.bufPush k n (.mz cmd (c.rd ga) (c.rd gb)) fun s => s.retire k w
      | _ => (s.holdCore k (.mezz gd w cmd (c.rd ga) (c.rd gb) false)).mzNext

/-- A core's own transaction on the bus, if it still holds. -/
def Core.mzOnBus (c : Core) : Option (BitVec 5 × Word) :=
  match c.hold with
  | some (.mezz gd w _ _ _ true) => some (gd, w)
  | _ => none

/-- The transaction on the bus ends: the bus is free and the next one enters it. -/
def State.mzFree (s : State) : State := { s with mezz := { s.mezz with bus := none, rel := none } }

/-- One more event in MEZZ_ERR_CNT or MEZZ_TMO_CNT (Table 18-7). -/
def State.mzErrCount (s : State) : State :=
  let old := s.mezz.err
  { s with mezz := { s.mezz with err := satInc old, ovf := s.mezz.ovf || old == 0xFFFFFFFE } }.cntSat 0x14 0 0xD00C old

def State.mzTmoCount (s : State) : State :=
  let old := s.mezz.tmo
  { s with mezz := { s.mezz with tmo := satInc old, ovf := s.mezz.ovf || old == 0xFFFFFFFE } }.cntSat 0x14 0 0xD010 old

/-- A released entry's transaction has ended (R290); the rest of the channel's entries follow. -/
def State.mzReleased (s : State) (n : ChIx) (good : Bool) : State :=
  let s := s.modChan n fun y => { y with sc := { y.sc with release := y.sc.release.drop 1 } }
  (if good then s else s.mzRelErr).runRelease n 65

/-- A core's transaction traps (R261). -/
def State.mzTrap (s : State) (k : CoreIx) (w : Word) (cause : Nat) (ebad : Word) : State :=
  (s.unhold k).trap k w cause 0 ebad

/-- MEZZANINE_ANSWER (R261): the status and the word that the card gives, and the bus cycles from the grant. -/
def execMezzanineAnswer (status : BitVec 2) (w : Word) (cycles : Nat) (s : State) : Res := liveR s fun s =>
  match s.mezz.bus with
  | none => s
  | some k =>
    let rel := s.mezz.rel
    let s := if status = 0 then s else s.mzErrCount
    let s := s.mzFree
    let s := match rel with
      | some n => s.mzReleased n (status == 0)
      | none => match s.cores[k].mzOnBus with
        | none => s
        | some (gd, iw) =>
          let s := s.unholdFor k (6 * Nat.max 5 cycles)
          if status = 0 then (s.modCore k fun c => c.later gd w 4).retire k iw
          else if status = 2 then s.mzTrap k iw 0x01 0
          else
            let e := w.toNat % 2 ^ 16
            (s.modCore k fun c => { c with cr := { c.cr with mzErr := e } }).mzTrap k iw 0x08 (toW e)
    s.mzNext

/-- MZ_TIMEOUT (R261): no answer in time; a later one is discarded. -/
def execMzTimeout (s : State) : Res := liveR s fun s =>
  match s.mezz.bus with
  | none => s
  | some k =>
    let rel := s.mezz.rel
    let s := s.mzTmoCount.mzFree
    let s := match rel with
      | some n => s.mzReleased n false
      | none => match s.cores[k].mzOnBus with
        | none => s
        | some (_, iw) => (s.unholdFor k (6 * s.cores[k].cr.mzTimeout)).mzTrap k iw 0x07 0
    s.mzNext

end Sys2Proof.Machine
end

