-- ==== Sys2Proof/Machine/Move.lean ====
section
/-! DEFINITION. The Move engine (chapter 10): starting a program, serving the lanes, descriptors, transfers, waits, signals, checks and stops. -/

namespace Sys2Proof.Machine

/-! ### Move addresses (R299, Table 10-1) -/

/-- What a move address names. -/
inductive MAddr where
  | host (a : Nat)
  | lmem (a : Nat)
  | needle (k : CoreIx) (a : Nat)
  | port (a : Nat)
  | capture (p : PortIx)
  | events (p : PortIx)
  | chars (p : PortIx)
  | bad
  deriving DecidableEq, Repr

/-- The meaning of a move address. -/
def mAddr (w : BitVec 64) : MAddr :=
  let n := w.toNat
  if 2 ^ 63 ≤ n then .host (n - 2 ^ 63)
  else if n < 2 ^ 62 then (if n < localEnd then .lmem n else .bad)
  else
    let kind := n / 2 ^ 56 % 64
    let low := n % 2 ^ 56
    if kind = 1 then
      (if low < 2 ^ 24 ∧ low % 2 ^ 20 < 0x28000 then .needle (finOf 16 (low / 2 ^ 20)) (low % 2 ^ 20) else .bad)
    else if kind = 2 then (if low < 2 ^ 24 then .port low else .bad)
    else if h : low < 128 then
      (if kind = 3 then .capture ⟨low, h⟩ else if kind = 4 then .events ⟨low, h⟩ else if kind = 5 then .chars ⟨low, h⟩ else .bad)
    else .bad

/-- An address of a program or descriptor: local or host memory, a multiple of 32 (R299). -/
def mProgOk (a : Nat) : Bool :=
  a % 32 == 0 && (match mAddr (BitVec.ofNat 64 a) with
    | .host _ => true
    | .lmem x => decide (x + 32 ≤ localEnd)
    | _ => false)

/-- A port or stream address (R301). -/
def MAddr.isStream : MAddr → Bool
  | .port _ | .capture _ | .events _ | .chars _ => true
  | _ => false

/-- The power domain whose contents an address names (R452, R454). -/
def MAddr.domain : MAddr → Option Nat
  | .needle k _ => some (1 + (clusterOf k).val)
  | .port a => match combRegAt a with
    | .comb c _ => some (16 + c.val)
    | .port p _ => some (16 + (combOf p).val)
    | .none => none
  | .capture p | .events p | .chars p => some (16 + (combOf p).val)
  | _ => none

/-- n bytes from an address stay in its space (Table 10-1). -/
def MAddr.fits (m : MAddr) (n : Nat) : Bool :=
  match m with
  | .host a => decide (a + n ≤ 2 ^ 63)
  | .lmem a => decide (a + n ≤ localEnd)
  | .needle _ a => decide (a + n ≤ 0x28000)
  | .port a => decide (a + n ≤ 0x1000000)
  | .capture _ | .events _ | .chars _ => true
  | .bad => false

/-! ### Descriptors (R301, Table 10-2) -/

/-- The operation of a descriptor. -/
def dOp (b : List Byte) : Nat := leAt b 0 1
/-- A flag of a descriptor. -/
def dFlag (b : List Byte) (i : Nat) : Bool := (BitVec.ofNat 8 (leAt b 1 1)).getLsbD i
/-- A 64-bit address of a descriptor. -/
def dAddr (b : List Byte) (ofs : Nat) : BitVec 64 := BitVec.ofNat 64 (leAt b ofs 8)
/-- Source and destination of a MOVE, the cursors where flagged (R303). -/
def dSrc (x : Mc) (b : List Byte) : BitVec 64 := if dFlag b 7 then x.src else dAddr b 8
def dDst (x : Mc) (b : List Byte) : BitVec 64 := if dFlag b 6 then x.dst else dAddr b 16
/-- VEC of a SIGNAL. -/
def dVec (b : List Byte) : Nat := leAt b 2 1 + 256 * (leAt b 3 1 % 4)

/-- A side's wrap field is allowed: 6 to 30 when circular, zero otherwise; no cursor or ring on a port or stream address (R301). -/
def sideOk (cur circ : Bool) (wrap : Nat) (a : BitVec 64) (field : Nat) : Bool :=
  (if circ then decide (6 ≤ wrap) && decide (wrap ≤ 30) else wrap == 0) && (!cur || field == 0) && (!(cur || circ) || !(mAddr a).isStream)

/-- A descriptor has a nonzero zero-field or a reserved encoding (R301). -/
def descField (x : Mc) (b : List Byte) : Bool :=
  let z (ofs n : Nat) : Bool := leAt b ofs n == 0
  !(match dOp b with
    | 0x01 => leAt b 1 1 % 16 == 0 && decide (leAt b 4 4 ≤ 16777216) && z 24 8 &&
        sideOk (dFlag b 7) (dFlag b 5) (leAt b 2 1) (dSrc x b) (leAt b 8 8) && sideOk (dFlag b 6) (dFlag b 4) (leAt b 3 1) (dDst x b) (leAt b 16 8)
    | 0x02 => z 1 3 && z 7 1 && z 16 16
    | 0x03 => z 3 1 && z 16 16 && (match leAt b 1 1 with
        | 1 => decide (leAt b 2 1 ≤ 1) && z 7 1 && z 8 8
        | 2 => decide (leAt b 2 1 ≤ 1)
        | 3 => z 2 14
        | _ => false)
    | 0x04 => leAt b 1 1 % 16 == 0 && decide (leAt b 3 1 < 4) && z 16 16 &&
        (if dFlag b 4 then decide (1 ≤ dVec b) && decide (dVec b ≤ 512) else dVec b == 0)
    | 0x05 => z 1 31
    | _ => true)

/-! ### Ends of a program (R298, R316, R317, R319) -/

/-- The move channel has no program any more. -/
def Mc.rest (x : Mc) (st : McState) : Mc :=
  { x with state := st, stop := false, stopHost := false, stopDom := none, wait := .none, desc := none, owner := .none, unacked := false }

/-- A move check (R319). -/
def State.mcCheck (s : State) (m : McIx) (cause : Nat) : State :=
  let o := s.mcs[m].owner
  let s := (s.modMc m fun x => { x.rest .check with cause := cause }).report 0x0A m.val 0x70 cause 0
  match o with
  | .chan n => s.check n 0x21 cause
  | .cmd c => s.complete c stMove cause 0
  | .none => s

/-- END (R316): the program ends with its writes visible. -/
def State.mcEnd (s : State) (m : McIx) : State :=
  let o := s.mcs[m].owner
  let s := s.modMc m fun x => { x.rest .idle with lact := false, lc := 0 }
  match o with
  | .chan n => match s.chans[n].ent with
    | some e => s.entryEnd n e.flags false s.chans[n].next stOk false
    | none => s
  | .cmd c => s.complete c stOk 0 0
  | .none => s

/-- A stop takes effect at a descriptor boundary (R317): what becomes of the command or chain that started the program depends on who
stopped it, the first of R203 where several did (R186, R200, R298, R418, R452). -/
def State.mcStop (s : State) (m : McIx) : State :=
  let y := s.mcs[m]
  let s := s.modMc m fun x => { x.rest .idle with lact := false, lc := 0 }
  match y.owner with
  | .chan n =>
    if s.chans[n].halting then s.modChan n fun x => x.atBoundary
    else if s.chans[n].state ≠ .active then s
    else if y.stopHost then (s.chanComplete n stCleared 0 0).chanIdle n
    else match y.stopDom with
      | some d => s.check n 0x22 d
      | none => if y.fenced then s.check n 0x0C 0 else (s.chanComplete n stCleared 0 0).chanIdle n
  | .cmd c =>
    if y.fenced then s.complete c stFenced 0 0
    else if y.stopHost then s.complete c stCleared 0 0
    else match y.stopDom with
      | some d => s.complete c stDomain d 0
      | none => s.complete c stCleared 0 0
  | .none => s

/-- A program starts at an address (R297); started in CHECK it clears the cause. -/
def State.mcStart (s : State) (m : McIx) (o : McOwner) (a : Nat) : State :=
  s.modMc m fun x =>
    { x with state := .ready, pc := a, owner := o, lact := false, lc := 0, ctl := 0, stop := false, stopHost := false, stopDom := none, wait := .none, wrTs := none, unacked := false, cut := false
             desc := none, cause := if x.state = .check then 0 else x.cause }

/-- MOVE_RUN (R297, R337, R418). -/
def execMoveRun (q : QpIx) (s : State) : Res := live s fun s => s.takeIo q 0x03 fun c s =>
  let m : McIx := finOf 64 c.target
  let x := s.mcs[m]
  if x.bound.isSome then s.invalid c 0x06 0
  else if x.fenced then s.complete c stFenced 0 0
  else if x.state ≠ .idle ∧ x.state ≠ .check then s.invalid c 0x05 0
  else if !s.glb.move then s.invalid c 0x04 2
  else s.mcStart m (.cmd c) c.addr

/-- A MOVE entry that has not started its program: read, or waiting for its move channel (R186). -/
def State.moveEntry (s : State) (n : ChIx) : Option Cce :=
  let x := s.chans[n]
  match x.ent with
  | some e =>
    if x.state == .active && x.cont.isNone && e.op == 0x80 && !x.halting && (x.wait == .executing || (x.wait == .move && !s.moveRuns n)) then some e
    else none
  | none => none

/-- MOVE (R186, R418): waits for the grant, for the move channel and for the MOVE bit; the last two waits show as the move program's. -/
def execMoveEntry (n : ChIx) (s : State) : Res := live s fun s =>
  match s.moveEntry n, s.chans[n].bind.mc with
  | none, _ => s
  | some _, none => s.check n 0x0C 0
  | some e, some m =>
    let x := s.mcs[m]
    if x.fenced then s.check n 0x0C 0
    else if !s.chans[n].granted then s
    else if !s.glb.move || (x.state ≠ .idle && x.state ≠ .check) then s.modChan n fun c => { c with wait := .move }
    else (s.modChan n fun c => { c with wait := .move, ctl := 0 }).mcStart m (.chan n) e.addr

/-! ### Lanes (R294, R295, R318) -/

/-- The bulk lane is curtailed: by Fanning, by degraded operation, or without its domain (R318, R419, R454). -/
def State.bulkHeld (s : State) : Bool := !s.fan.bulkOn || s.prop.degraded || s.prop.grave || s.dom 6 != .on

/-- A move channel of a lane that is being served. -/
def State.served (s : State) (bulk : Bool) : Bool := s.mcs.any fun x => x.bulk == bulk && x.state == .running

/-- MOVE_CHANNEL_SERVE: the free lane serves its next ready channel, round robin. -/
def execMoveChannelServe (bulk : Bool) (s : State) : Res := live s fun s =>
  if s.served bulk || (bulk && s.bulkHeld) then s
  else
    let last := if bulk then s.blk.mvLast.2 else s.blk.mvLast.1
    match ((List.range 64).map fun i => (finOf 64 (last.val + 1 + i) : McIx)).find? fun m => s.mcs[m].bulk == bulk && s.mcs[m].state == .ready with
    | none => s
    | some m =>
      { s.modMc m fun x => { x with state := .running } with
        blk := { s.blk with mvLast := if bulk then (s.blk.mvLast.1, m) else (m, s.blk.mvLast.2) } }

/-! ### Reading a descriptor (R302) -/

/-- The bytes of the next descriptor, or the cause of a check; none where the operand is no such read. -/
def State.descBytes (s : State) (a : Nat) (r : ReadRes) : Option (Sum Nat (List Byte)) :=
  if !mProgOk a then some (.inl 0x03)
  else if isHost a then
    match r with
    | .ok b => if b.length = 32 then some (.inr b) else none
    | _ => some (.inl 0x0A)
  else match r with
    | .ecc => some (.inl 0x0B)
    | _ => some (.inr (Memory.read s.lmem a 32))

/-- The channel stands at a descriptor boundary and may begin the next descriptor (R317, R318). -/
def State.mcBegins (s : State) (m : McIx) : Bool :=
  let x := s.mcs[m]
  x.state == .running && x.desc.isNone && !x.stop && !(x.bulk && s.bulkHeld)

/-- DESCRIPTOR_FETCH (R302): the descriptor at MC_PC is read; a reserved opcode or field ends the program before it takes effect (R301). -/
def execDescriptorFetch (m : McIx) (r : ReadRes) (s : State) : Res :=
  if s.psu.bind = .off ∨ !s.mcBegins m then .next s
  else match s.descBytes s.mcs[m].pc r with
    | none => .fault (.malformed "DESCRIPTOR_FETCH")
    | some (.inl cause) => .next (s.mcCheck m cause)
    | some (.inr b) =>
      .next (if dOp b = 0 ∨ 5 < dOp b then s.mcCheck m 0x01
        else if descField s.mcs[m] b then s.mcCheck m 0x02
        else s.modMc m fun x => { x with desc := some b })

/-- The descriptor in execution, if its operation is the one named. -/
def State.mcDesc (s : State) (m : McIx) (op : Nat) : Option (List Byte) :=
  let x := s.mcs[m]
  match x.desc with
  | some b => if x.state = .running ∧ dOp b = op then some b else none
  | none => none

/-- The descriptor is complete; the next one follows. -/
def Mc.step (x : Mc) : Mc := { x with pc := x.pc + 32, desc := none }

/-- A domain keeps a descriptor that names it from beginning: not one whose descriptor was in execution as it began to drain, which completes
(R452), nor a Comb that powers up, where R71 applies (R300). -/
def State.domainBars (s : State) (m : McIx) (d : Nat) : Bool :=
  match s.dom d with
  | .on => false
  | .draining => s.mcs[m].stopDom != some d
  | .off => true
  | .rising => decide (d < 16)

/-- A descriptor that names an address in a domain that is off by request ends its program as a stop does, with DOMAIN_DOWN; in one that is
draining, or gated automatically, it waits, and the latter wakes (R452, R454): some the state without the descriptor's effect. -/
def State.mcDomain (s : State) (m : McIx) (as : List MAddr) : Option State :=
  match (as.filterMap MAddr.domain).find? fun d => s.domainBars m d with
  | none => none
  | some d =>
    let i : Fin 32 := finOf 32 d
    if s.dom d = .off ∧ !s.fan.auto.getLsbD d then some ((s.modMc m fun x => { x with stopDom := some d }).mcStop m)
    else if s.dom d = .off then some { s with fan := { s.fan with dom := s.fan.dom.set i .rising, auto := s.fan.auto &&& ~~~(1#32 <<< d) } }
    else some s

/-! ### MOVE (R303 to R310) -/

/-- One side of a MOVE: its space, its length as a ring (none: linear). -/
structure Side where
  at_  : MAddr
  ring : Option Nat
  deriving DecidableEq, Repr

/-- The offset of byte i of a side that starts at offset a (R305). -/
def Side.ofs (x : Side) (a i : Nat) : Nat :=
  match x.ring with
  | none => a + i
  | some w => a / 2 ^ w * 2 ^ w + (a % 2 ^ w + i) % 2 ^ w

/-- The pieces [from, to) of a side in its space, after wrap. -/
def Side.pieces (x : Side) (a n : Nat) : List (Nat × Nat) :=
  match x.ring with
  | none => [(a, a + n)]
  | some w =>
    let e := a / 2 ^ w * 2 ^ w + 2 ^ w
    if a + n ≤ e then [(a, a + n)] else [(a, e), (e - 2 ^ w, a + n - 2 ^ w)]

def overlap2 (p q : List (Nat × Nat)) : Bool := p.any fun x => q.any fun y => decide (x.1 < y.2) && decide (y.1 < x.2)

/-- Two sides of n bytes share a byte of one space (R306). -/
def Side.meets (x y : Side) (n : Nat) : Bool :=
  match x.at_, y.at_ with
  | .host a, .host b | .lmem a, .lmem b => overlap2 (x.pieces a n) (y.pieces b n)
  | .needle j a, .needle k b => (j == k || (clusterOf j == clusterOf k && decide (0x20000 ≤ a) && decide (0x20000 ≤ b))) && overlap2 (x.pieces a n) (y.pieces b n)
  | _, _ => false

/-- The ring of a side lies in its space; rings are only of local and host memory (R305). -/
def Side.ok (x : Side) (n : Nat) : Bool :=
  match x.ring, x.at_ with
  | none, a => a.fits n
  | some w, .host a => decide (a / 2 ^ w * 2 ^ w + 2 ^ w ≤ 2 ^ 63)
  | some w, .lmem a => decide (a / 2 ^ w * 2 ^ w + 2 ^ w ≤ localEnd)
  | some _, _ => false

/-- The check that a MOVE meets before any byte moves, 0 for none. -/
def moveFault (bulk : Bool) (x y : Side) (n : Nat) : Nat :=
  if !bulk ∧ 4096 < n then 0x09
  else if (match x.at_ with | .chars _ => true | _ => false) || (match y.at_ with | .capture _ | .events _ => true | _ => false) then 0x03
  else if !x.ok n ∨ !y.ok n then 0x03
  else if (match x.at_ with | .port a => a % 4 != 0 || n % 4 != 0 | _ => false) || (match y.at_ with | .port a => a % 4 != 0 || n % 4 != 0 | _ => false)
    then 0x04
  else if (match x.ring with | some w => decide (2 ^ w < n) | none => false) || (match y.ring with | some w => decide (2 ^ w < n) | none => false) then 0x06
  else if (x.ring.isSome || y.ring.isSome) && x.meets y n then 0x05
  else 0

/-- Bytes of a core's SRAM as any other agent reads them. -/
def State.sramRead (s : State) (k : CoreIx) (a n : Nat) : List Byte :=
  (List.range n).map fun i => if a + i < 0x20000 then Memory.get s.cores[k].dsram (a + i) else Memory.get s.csram[(clusterOf k)] (a + i - 0x20000)

/-- A write to a core's SRAM by another agent (R227). -/
def State.sramWrite (s : State) (k : CoreIx) (a : Nat) (b : List Byte) : State :=
  let lo := b.take (0x20000 - a)
  let hi := b.drop (0x20000 - a)
  let c := (if a < 0x20000 then 0x20000 else a) - 0x20000
  let s := (s.modCore k fun x => { x with dsram := Memory.write x.dsram a lo }).clearRsv none fun j g _ =>
    j == k && !lo.isEmpty && decide (g * 32 < a + lo.length) && decide (a < g * 32 + 32)
  let q := clusterOf k
  if hi.isEmpty then s
  else { s with csram := s.csram.set q (Memory.write s.csram[q] c hi) }.clearRsv none fun j g _ => clusterOf j == q && granuleInCluster g c hi.length

/-- Words of port register space, read in order with their effects (R300). -/
def State.portWords (s : State) (a : Nat) : Nat → List Byte × State
  | 0 => ([], s)
  | n + 1 =>
    let (v, s) := s.regionRead .move a
    let (bs, s) := s.portWords (a + 4) n
    (leBytes 4 v.toNat ++ bs, s)

/-- Words written to port register space, in order (R300). -/
def State.putWords (s : State) (a : Nat) : Nat → List Byte → State
  | 0, _ => s
  | n + 1, b => (s.regionWrite none a (toW (leAt b 0 4))).putWords (a + 4) n (b.drop 4)

/-- Whole blocks that fit, oldest first, and what stays (R307). -/
def takeBlocks (n : Nat) : List CapBlock → List Byte × List CapBlock
  | [] => ([], [])
  | b :: bs =>
    if b.length ≤ n then
      let (x, r) := takeBlocks (n - b.length) bs
      (b ++ x, r)
    else ([], b :: bs)

/-- The capture stream of a port: its frames in order; a frame with no block left is gone. -/
def takeFrames (n : Nat) : List (List CapBlock) → List Byte × List (List CapBlock)
  | [] => ([], [])
  | f :: fs =>
    let (x, r) := takeBlocks n f
    if r.isEmpty then
      let (y, r') := takeFrames (n - x.length) fs
      (x ++ y, r')
    else (x, r :: fs)

/-- Event records popped into a MOVE (R307, R392). -/
def State.moveEvents (s : State) (p : PortIx) : Nat → List Byte × State
  | 0 => ([], s)
  | n + 1 =>
    match s.ports[p].ev.pop with
    | (some r, ev) =>
      let (x, s) := (s.modPort p fun y => { y with ev := ev }).moveEvents p n
      (leBytes 8 r.ts ++ leBytes 8 (r.word p) ++ x, s)
    | (none, _) => ([], s)

/-- What the source gives for n bytes. -/
def State.moveRead (s : State) (x : Side) (n : Nat) (host : List Byte) : List Byte × State :=
  match x.at_ with
  | .host _ => (host.take n, s)
  | .lmem a => (((x.pieces a n).map fun q => Memory.read s.lmem q.1 (q.2 - q.1)).flatten, s)
  | .needle k a => (s.sramRead k a n, s)
  | .port a =>
    let (b, s) := s.portWords a ((n + 3) / 4)
    (b.take n, s)
  | .capture p =>
    if !s.combReady (combOf p) then ([], s)
    else
      let (b, r) := takeFrames n s.ports[p].i.cap
      (b, s.modPort p fun y => { y with i := { y.i with cap := r } })
  | .events p => if !s.combReady (combOf p) then ([], s) else s.moveEvents p (Nat.min (n / 16) s.ports[p].ev.unread.length)
  | _ => ([], s)

/-- The bytes go to the destination. -/
def State.moveWrite (s : State) (y : Side) (b : List Byte) : State :=
  match y.at_ with
  | .host a => s.each (y.pieces a b.length) fun q s => s.hostWrite q.1 (slice b (if q.1 = a then 0 else b.length - (q.2 - q.1)) (q.2 - q.1))
  | .lmem a => s.each (y.pieces a b.length) fun q s => s.localWrite none q.1 (slice b (if q.1 = a then 0 else b.length - (q.2 - q.1)) (q.2 - q.1))
  | .needle k a => s.sramWrite k a b
  | .port a => s.putWords a (b.length / 4) b
  | .chars p => s.each b fun c s => s.pushChar p (c.zeroExtend 9)
  | _ => s

/-- Bytes that a transmit queue takes (R309). -/
def State.charRoom (s : State) (y : Side) (n : Nat) : Nat :=
  match y.at_ with
  | .chars p => if s.combReady (combOf p) && takesChars p s.ports[p] then Nat.min n (256 - s.ports[p].tx.q.length) else 0
  | _ => n

/-- Energy of moved bytes in pJ (Table 15-3). -/
def moveEnergy (x y : Side) (n : Nat) : Nat :=
  let inner (m : MAddr) : Bool := match m with | .lmem _ | .needle _ _ => true | _ => false
  n * (if inner x.at_ && inner y.at_ then 20 else 40)

/-- The energy is charged to the channel of the program, and counted for the bulk lane (R446, R447). -/
def State.moveCharge (s : State) (m : McIx) (e : Nat) : State :=
  let x := s.mcs[m]
  let s := if x.bulk then { s with fan := { s.fan with bulkUsed := s.fan.bulkUsed + e } } else s
  match x.owner with
  | .chan n => s.modChan n fun c => { c with used := c.used + e }
  | _ => s

/-- The cursor after n bytes (R303, R305). -/
def Side.advance (x : Side) (a : BitVec 64) (n : Nat) : BitVec 64 := BitVec.ofNat 64 (x.ofs a.toNat n)

/-- The error that applies to a transfer between these sides (R310). -/
def xferCause (x y : Side) : XferErr → Nat
  | .hostAbort => match x.at_, y.at_ with | .host _, _ | _, .host _ => 0x0A | _, _ => 0
  | .ecc => match x.at_ with | .lmem _ => 0x0B | _ => 0
  | .access => match x.at_, y.at_ with | .port _, _ | _, .port _ => 0x0C | _, _ => 0

/-- The offset of a memory side. -/
def MAddr.offset : MAddr → Nat
  | .host a | .lmem a | .needle _ a => a
  | _ => 0

/-- A linear side from byte i on. -/
def Side.from (x : Side) (i : Nat) : Side :=
  { x with at_ := match x.at_ with
      | .host a => .host (a + i)
      | .lmem a => .lmem (a + i)
      | .needle k a => .needle k (a + i)
      | m => m }

/-- An overlapping copy runs in descending order: the destination lies above the source (R306). -/
def descends (x y : Side) (n : Nat) : Bool := x.meets y n && decide (x.at_.offset < y.at_.offset)

/-- The bytes that an error leaves written: of an uncorrectable local-memory read none of the failing 64 B burst (R310; bursts count from where
the copy begins, log entry 101). -/
def errBytes (cause k : Nat) : Nat := if cause = 0x0B then k / 64 * 64 else k

/-- Writes of the program have left the engine now. -/
def Mc.wrote (x : Mc) (t : Nat) (any : Bool) : Mc := if any then { x with wrTs := some t, unacked := true } else x

/-- `want` of n bytes move, the upper ones of a copy in descending order. -/
def State.moveSome (s : State) (m : McIx) (x y : Side) (want n : Nat) (host : List Byte) : Nat × State :=
  let up := if descends x y n then n - want else 0
  let (bytes, s) := s.moveRead (x.from up) want host
  let s := (s.muted s.mcs[m].cut fun s => s.moveWrite (y.from up) bytes).moveCharge m (moveEnergy x y bytes.length)
  (bytes.length, s.modMc m fun z => { z.wrote s.now (!bytes.isEmpty) with lastLen := bytes.length, ctl := 0 })

/-- The two sides of a MOVE. -/
def Mc.sides (z : Mc) (b : List Byte) : Side × Side :=
  (⟨mAddr (dSrc z b), if dFlag b 5 then some (leAt b 2 1) else none⟩, ⟨mAddr (dDst z b), if dFlag b 4 then some (leAt b 3 1) else none⟩)

/-- The transfer itself: n bytes asked for, and an error after some of them if any. -/
def State.moveBytes (s : State) (m : McIx) (b : List Byte) (x y : Side) (n : Nat) (d : MoveData) : State :=
  let err := match d.err with
    | some (e, k) => if xferCause x y e = 0 then none else some (xferCause x y e, errBytes (xferCause x y e) (Nat.min k n))
    | none => none
  let want := s.charRoom y (match err with | some (_, k) => k | none => n)
  let (k, s) := s.moveSome m x y want n d.hostBytes
  match err with
  | some (c, _) => s.mcCheck m c
  | none => s.modMc m fun z => { z.step with src := if dFlag b 7 then x.advance z.src k else z.src, dst := if dFlag b 6 then y.advance z.dst k else z.dst }

/-- In D3hot a write to host memory waits, and the move channel with it (R350), but one that a host reset discards (R362). -/
def State.hostWaits (s : State) (cut : Bool) (a : MAddr) : Bool :=
  match a with
  | .host _ => s.hq.issues && s.hq.d3 && !cut
  | _ => false

/-- A MOVE that the drain limit abandons: the bytes written stay, a free number of them, and the cursors do not advance; the program ends as its
domain's loss ends it (R453). -/
def State.mcAbandon (s : State) (m : McIx) (d : Nat) : State :=
  let z := s.mcs[m]
  let s := match z.desc with
    | some b =>
      let n := leAt b 4 4
      let (x, y) := z.sides b
      if dOp b ≠ 1 ∨ moveFault z.bulk x y n ≠ 0 then s
      else
        let (w, s) := s.draw
        let k := if s.hostWaits z.cut y.at_ then 0 else w.toNat % (n + 1)
        let (h, s) := match x.at_ with | .host _ => s.drawBytes k | _ => ([], s)
        (s.moveSome m x y (s.charRoom y k) n h).2
    | none => s
  (s.modMc m fun z => { z with stop := true, stopDom := some d }).mcStop m

/-- A program whose descriptor in execution, or whose wait for a signal, names an address in the domain. -/
def Mc.inDomain (x : Mc) (d : Nat) : Bool :=
  (match x.desc with
    | some b => x.state == .running && dOp b == 1 && ((x.sides b).1.at_.domain == some d || (x.sides b).2.at_.domain == some d)
    | none => false) ||
  (match x.wait with | .signal a _ _ => (mAddr (BitVec.ofNat 64 a)).domain == some d | _ => false)

/-- MOVE_DESCRIPTOR (R303). -/
def execMoveDescriptor (m : McIx) (r : MoveData) (s : State) : Res :=
  match s.psu.bind, s.mcDesc m 0x01 with
  | .off, _ => .next s
  | _, none => .next s
  | _, some b =>
    let z := s.mcs[m]
    let n := leAt b 4 4
    let x := (z.sides b).1
    let y := (z.sides b).2
    let f := moveFault z.bulk x y n
    if f ≠ 0 then .next (s.mcCheck m f)
    else match s.mcDomain m [x.at_, y.at_] with
      | some s => .next s
      | none =>
        let fits := match x.at_, r.err with
          | .host _, none => r.hostBytes.length == n
          | .host _, some (_, k) => decide (Nat.min k n ≤ r.hostBytes.length)
          | _, _ => true
        if s.hostWaits z.cut y.at_ then .next s.pmeDue
        else if fits then .next (s.moveBytes m b x y n r).settle else .fault (.malformed "MOVE_DESCRIPTOR")

/-! ### LOOP (R311) -/

/-- LOOP and SIGNAL descriptors in a row: the 64th ends the program. -/
def State.mcControl (s : State) (m : McIx) (f : State → State) : State :=
  if 63 ≤ s.mcs[m].ctl then s.mcCheck m 0x08 else f (s.modMc m fun x => { x with ctl := x.ctl + 1 })

/-- LOOP_DESCRIPTOR (R311). -/
def execLoopDescriptor (m : McIx) (s : State) : Res := live s fun s =>
  match s.mcDesc m 0x02 with
  | none => s
  | some b =>
    let count := leAt b 4 3
    let target := leAt b 8 8
    if !mProgOk target then s.mcCheck m 0x03
    else s.mcControl m fun s =>
      let x := s.mcs[m]
      if x.lact ∧ x.loopAt ≠ x.pc then s.mcCheck m 0x07
      else
        let lc := if x.lact then x.lc else count
        s.modMc m fun x =>
          if count = 0 then { x with lact := true, loopAt := x.pc, lc := lc, pc := target, desc := none }
          else if lc ≠ 1 then { x with lact := true, loopAt := x.pc, lc := (lc + 0xFFFFFF) % 2 ^ 24, pc := target, desc := none }
          else { x.step with lact := false, loopAt := x.pc, lc := 0 }

/-! ### WAIT (R312 to R314) -/

/-- The wait is over; the channel is ready for its lane again (R295). -/
def State.mcWake (s : State) (m : McIx) : State := s.modMc m fun x => { x.step with state := .ready, wait := .none }

/-- WAIT_TICK (R312): a count of 0 acts as 1. -/
def execWaitTick (m : McIx) (s : State) : Res := live s fun s =>
  match s.mcDesc m 0x03 with
  | none => s
  | some b => if leAt b 1 1 ≠ 1 then s
    else s.modMc m fun x => { x with state := .waiting, ctl := 0, wait := .tick (leAt b 2 1 == 1) (Nat.max 1 (leAt b 4 3)) }

/-- A phase point passes: waits for it come one nearer (R312). -/
def State.mcPhase (s : State) (input : Bool) : State :=
  { s with mcs := s.mcs.map fun x => match x.wait with
      | .tick i n => if i = input then { x with wait := .tick i (n - 1) } else x
      | _ => x }

/-- WAIT_TICK_END (R312). -/
def execWaitTickEnd (m : McIx) (s : State) : Res := live s fun s =>
  match s.mcs[m].wait with
  | .tick _ 0 => if s.mcs[m].stop then s else s.mcWake m
  | _ => s

/-- The word that a WAIT SIGNAL watches. -/
def State.sigWord (s : State) (a : Nat) : Word :=
  match mAddr (BitVec.ofNat 64 a) with
  | .lmem x => toW (Memory.num s.lmem x 4)
  | .needle k x => toW (ofLeBytes (s.sramRead k x 4))
  | _ => 0

/-- CLR: the masked bits are cleared in the same access (R313). -/
def State.sigClear (s : State) (a : Nat) (mask : Word) : State :=
  let v := leBytes 4 (s.sigWord a &&& ~~~mask).toNat
  match mAddr (BitVec.ofNat 64 a) with
  | .lmem x => s.localWrite none x v
  | .needle k x => s.sramWrite k x v
  | _ => s

/-- WAIT_SIGNAL (R313): ends at once when a masked bit is set. -/
def execWaitSignal (m : McIx) (s : State) : Res := live s fun s =>
  match s.mcDesc m 0x03 with
  | none => s
  | some b =>
    if leAt b 1 1 ≠ 2 then s
    else
      let a := leAt b 8 8
      let mask := toW (leAt b 4 4)
      let clr := leAt b 2 1 == 1
      let x := mAddr (BitVec.ofNat 64 a)
      if (match x with | .lmem _ | .needle _ _ => false | _ => true) || !x.fits (4 - a % 4) then s.mcCheck m 0x03
      else if a % 4 ≠ 0 then s.mcCheck m 0x04
      else match s.mcDomain m [x] with
        | some s => s
        | none =>
          let s := s.modMc m fun x => { x with ctl := 0 }
          if s.sigWord a &&& mask ≠ 0 then (if clr then s.sigClear a mask else s).modMc m fun x => (x.wrote s.now clr).step
          else s.modMc m fun x => { x with state := .waiting, wait := .signal a mask clr }

/-- The wait of a move channel is for a signal that is there. -/
def State.sigThere (s : State) (m : McIx) : Option (Nat × Word × Bool) :=
  match s.mcs[m].wait with
  | .signal a mask clr => if s.sigWord a &&& mask ≠ 0 then some (a, mask, clr) else none
  | _ => none

/-- WAIT_SIGNAL_WAKE (R313): of two waits with CLR that find bits set, the lower move channel takes them (Table 10-7). The store's
wake-up crosses as a pulse (R406). -/
def execWaitSignalWake (m : McIx) (s : State) : Res := live s fun s =>
  match s.sigThere m with
  | none => s
  | some (a, mask, clr) =>
    let lower := (allFin 64).any fun j => decide (j < m) && (match s.sigThere j with | some (b, _, c) => b == a && c && clr | none => false)
    if lower || s.mcs[m].stop then s
    else (((if clr then s.sigClear a mask else s).modMc m fun x => x.wrote s.now clr).pulse 17).mcWake m

/-- WAIT_DRAIN (R314): ends at once, the lane kept (R295), when every earlier write has been acknowledged. Whether the targets of writes made have
acknowledged by now is a free value (log entry 61). -/
def execWaitDrain (m : McIx) (s : State) : Res := live s fun s =>
  match s.mcDesc m 0x03 with
  | none => s
  | some b =>
    if leAt b 1 1 ≠ 3 then s
    else
      let (w, s) := if s.mcs[m].unacked then s.draw else (0, s)
      if w.getLsbD 0 then s.modMc m fun x => { x with state := .waiting, ctl := 0, wait := .drain }
      else s.modMc m fun x => { x.step with ctl := 0, unacked := false }

/-- WAIT_DRAIN_END (R314): the last acknowledgement has come. -/
def execWaitDrainEnd (m : McIx) (s : State) : Res := live s fun s =>
  if s.mcs[m].wait = .drain ∧ !s.mcs[m].stop then (s.modMc m fun x => { x with unacked := false }).mcWake m else s

/-! ### SIGNAL, END and stops (R315 to R317) -/

/-- The signal record (Table 10-4); SEQ is MC_SIG_CNT modulo 256 after the signal. -/
def sigRecord (m : McIx) (ts : Nat) (v : Word) (seq : Nat) : List Byte :=
  leBytes 8 ts ++ leBytes 4 v.toNat ++ leBytes 1 m.val ++ leBytes 1 seq ++ [0] ++ [0x80]

/-- TS of a signal record: the time of the program's last earlier write; a program that has made none has no such time, and TS is a free value. -/
def State.sigTime (s : State) (m : McIx) : Nat × State :=
  match s.mcs[m].wrTs with
  | some t => (t, s)
  | none =>
    let (a, s) := s.draw
    let (b, s) := s.draw
    (a.toNat + 2 ^ 32 * b.toNat, s)

/-- The count, the record and the vector of a SIGNAL. -/
def State.mcSignal (s : State) (m : McIx) (b : List Byte) : State :=
  let x := s.mcs[m]
  let old := x.sig
  let s := s.modMc m fun x => { x with sig := satInc old, ovf := x.ovf || old == 0xFFFFFFFE }
  let s := s.cntSat 0x0A m.val (0x200000 + m.val * 0x40 + 0x28) old
  let v := if dFlag b 6 then (if dFlag b 5 then x.src else x.dst).truncate 32 else toW (leAt b 4 4)
  let s := if dFlag b 7 then
      let (ts, s) := s.sigTime m
      (s.muted x.cut fun s => s.moveWrite ⟨mAddr (dAddr b 8), none⟩ (sigRecord m ts v (s.mcs[m].sig % 256))).modMc m fun x => x.wrote s.now true
    else s
  let s := s.modMc m fun x => x.step
  if dFlag b 4 then s.reqVec (finOf 513 (dVec b)) else s

/-- SIGNAL (R315). -/
def execSignal (m : McIx) (s : State) : Res := live s fun s =>
  match s.mcDesc m 0x04 with
  | none => s
  | some b =>
    let a := mAddr (dAddr b 8)
    if dFlag b 7 && ((match a with | .host _ | .lmem _ | .needle _ _ => false | _ => true) || !a.fits (16 - leAt b 8 8 % 16)) then s.mcCheck m 0x03
    else if dFlag b 7 && leAt b 8 8 % 16 != 0 then s.mcCheck m 0x04
    else match s.mcDomain m (if dFlag b 7 then [a] else []) with
      | some s => s
      | none => if dFlag b 7 && s.hostWaits s.mcs[m].cut a then s.pmeDue else s.mcControl m fun s => s.mcSignal m b

/-- END (R316). -/
def execEndProgram (m : McIx) (s : State) : Res := live s fun s =>
  match s.mcDesc m 0x05 with
  | none => s
  | some _ => s.mcEnd m

/-- A write of MC_CTRL (R317, Table 10-7). -/
def State.wrMcCtrl (s : State) (m : McIx) (v : Word) : State :=
  let x := s.mcs[m]
  if x.state = .idle ∨ x.state = .check then s.modMc m fun x => { x with bulk := bit v 0 }
  else
    let s := if x.bulk ≠ bit v 0 then { s with blk := { s.blk with mvBusy := true } } else s
    if bit v 31 then s.modMc m fun x => { x with stop := true, stopHost := true } else s

/-- STOP (R317). -/
def execStop (_a : Agent) (m : McIx) (v : Word) (s : State) : Res := live s fun s => s.wrMcCtrl m v

/-- A descriptor is in execution that completes before a stop: a MOVE, SIGNAL or LOOP that has begun (R317). -/
def State.mcInside (s : State) (m : McIx) : Bool :=
  let x := s.mcs[m]
  let open_ (as : List MAddr) : Bool := !(as.filterMap MAddr.domain).any fun d => s.domainBars m d
  match x.desc with
  | some b =>
    x.state == .running && (match dOp b with
      | 1 => open_ [mAddr (dSrc x b), mAddr (dDst x b)]
      | 2 => true
      | 4 => open_ (if dFlag b 7 then [mAddr (dAddr b 8)] else [])
      | _ => false)
  | none => false

/-- MOVE_STOP: a stop request takes effect at the descriptor boundary; an END read before it ends the program normally (R317). -/
def execMoveStop (m : McIx) (s : State) : Res := live s fun s =>
  let x := s.mcs[m]
  if !x.stop || x.state == .idle || x.state == .check || s.mcInside m then s
  else match s.mcDesc m 0x05 with
    | some _ => s.mcEnd m
    | none => s.mcStop m

/-- MC_STAT.STATE (Table 10-11): a channel that has a stop request before it is STOPPING. -/
def Mc.shown (x : Mc) : Nat :=
  match x.state with
  | .idle => 0
  | .check => 4
  | .ready => if x.stop then 5 else 1
  | .running => if x.stop then 5 else 2
  | .waiting => if x.stop then 5 else 3

end Sys2Proof.Machine
end

