-- ==== Sys2Proof/Machine/Propolis.lean ====
section
/-! DEFINITION. Propolis (chapter 14): units and scopes, classes, escalation, records, fences, recovery, acknowledgement, injection. -/

namespace Sys2Proof.Machine

/-! ### Units (R411, Table 14-1) -/

/-- The type and index name a unit. -/
def unitOk (u : UnitId) : Bool :=
  match u.utype with
  | 0x01 | 0x02 => decide (u.index < 128)
  | 0x03 => decide (u.index < 128) && u.index % 2 == 0
  | 0x04 | 0x05 => decide (u.index < 16)
  | 0x08 => decide (u.index < 256)
  | 0x09 => decide (u.index < 16)
  | 0x0A => decide (u.index < 64)
  | 0x0B => decide (u.index < 512)
  | 0x12 => decide (u.index < 4)
  | 0x15 => decide (u.index ≤ 20)
  | 0x0C | 0x0D | 0x10 | 0x11 | 0x13 | 0x14 | 0x18 | 0x19 | 0x1A | 0x1B => u.index == 0
  | _ => false

/-- The ports that belong to a unit: of a group its lead and members, of a channel the ports that it owns. -/
def State.unitPorts (s : State) (u : UnitId) : List PortIx :=
  let p : PortIx := finOf 128 u.index
  match u.utype with
  | 0x01 => [p]
  | 0x02 => p :: ((s.groupFrom p).getD []).map (·.1)
  | 0x03 => [p, finOf 128 (u.index + 1)]
  | 0x04 | 0x05 => portsOf (finOf 16 u.index)
  | 0x08 => (allFin 128).filter fun q => s.ports[q].owner == some (finOf 256 u.index)
  | _ => []

/-- The channels that own some ports (PC_SAFE.OWNER with OWN_EN). -/
def State.owners (s : State) (ps : List PortIx) : List ChIx := (ps.filterMap fun p => s.ports[p].owner).eraseDups

/-- The scope that one class adds (Table 14-1). -/
def State.scopeAt (s : State) (u : UnitId) (cls : Nat) : List Obj :=
  let ps := s.unitPorts u
  let combs := ((ps.map combOf).eraseDups).map Obj.comb
  let k : CoreIx := finOf 16 u.index
  let m : McIx := finOf 64 u.index
  match u.utype, cls with
  | 0x01, 2 | 0x02, 2 | 0x03, 2 | 0x04, 2 | 0x05, 2 => (s.owners ps).map Obj.chan
  | 0x01, 3 | 0x02, 3 | 0x03, 3 | 0x04, 3 | 0x05, 3 | 0x08, 3 => combs
  | 0x08, 2 => [.chan (finOf 256 u.index)]
  | 0x09, 1 => [.core k]
  | 0x09, 2 => ((allFin 256).filter fun n => s.chans[n].bind.bound && s.chans[n].bind.core == k && !s.chans[n].bind.anyCore).map Obj.chan
  | 0x0A, 1 => [.mc m]
  | 0x0A, 2 => s.mcs[m].bound.toList.map Obj.chan
  | 0x0D, 2 => (allFin 256).map Obj.chan
  | 0x0D, 3 => (allFin 16).map Obj.comb
  | _, _ => []

/-- What a fence of an object fences beside it (R417, R418): the channels that own a port of a Comb, the channel of a core's routine. -/
def State.withFenced (s : State) (o : Obj) : List Obj :=
  match o with
  | .comb c => o :: (s.owners (portsOf c)).map Obj.chan
  | .core k => o :: (s.cores[k].run.toList.map fun r => Obj.chan r.ch)
  | _ => [o]

/-- Everything that a class of a unit fences, the classes below it included (R416, Table 14-3). -/
def State.scope (s : State) (u : UnitId) (cls : Nat) : List Obj :=
  (((List.range 4).filter fun c => decide (1 ≤ c) && decide (c ≤ cls)).flatMap fun c => (s.scopeAt u c).flatMap s.withFenced).eraseDups

/-! ### Units' records (R422, R423, R425) -/

def State.punit (s : State) (u : UnitId) : PUnit := (s.prop.units.find? (·.u == u)).getD ⟨u, [], 0, 0, []⟩
def State.setUnit (s : State) (x : PUnit) : State :=
  { s with prop := { s.prop with units := x :: s.prop.units.filter (·.u != x.u) } }

/-- A unit's recovery counter; a channel's is CH_RECOV (R425). -/
def State.recovOf (s : State) (u : UnitId) : Nat :=
  if u.utype = 0x08 then s.chans[(finOf 256 u.index : ChIx)].recov else (s.punit u).recov

def State.countRecov (s : State) (u : UnitId) : State :=
  if u.utype = 0x08 then s.modChan (finOf 256 u.index) fun x => { x with recov := satInc16 x.recov }
  else let x := s.punit u; s.setUnit { x with recov := satInc16 x.recov }

/-! ### Fences (R417, R418, R424) -/

/-- The ports of a channel take or leave their safe states (R378, R379, R417). -/
def State.reholdOwned (s : State) (n : ChIx) : State :=
  s.each ((allFin 128).filter fun p => s.ports[p].owner == some n) fun p s => s.rehold p

/-- A running in-service calibration of a Comb counts its frames anew: a fence pauses it (R417, Table 3-11). -/
def State.calAnew (s : State) (c : CombIx) : State :=
  if s.combs[c].calPort.isSome then s.modComb c fun x => { x with calFrom := s.tick.frames + 1 } else s

/-- The first fence of an object acts (R421). -/
def State.applyFence (s : State) (o : Obj) : State :=
  match o with
  | .comb c => ((s.reholdComb c).releaseComb c).calAnew c
  | .chan n => (s.fenceChan n).reholdOwned n
  | .core k =>
    let s := s.modCore k fun c => { c with fenced := true }
    if s.cores[k].run.isSome then s.stopCore k else s
  | .mc m => s.modMc m fun x => { x with fenced := true, stop := x.stop || (x.state != .idle && x.state != .check) }

/-- An object is fenced for a fault, or for degraded or grave operation. -/
def State.fenceObj (s : State) (o : Obj) (h : Option UnitId) : State :=
  let was := s.fencedObj o
  let s := if s.prop.fences.contains (o, h) then s else { s with prop := { s.prop with fences := s.prop.fences ++ [(o, h)] } }
  if was then s else s.applyFence o

/-- The last fence of an object ends (R424, R425): a Comb lifts its safe states, a channel and a move channel enter IDLE, a core takes up
operations again. -/
def State.liftFence (s : State) (o : Obj) : State :=
  match o with
  | .comb c => ((s.reholdComb c).calAnew c).countRecov ⟨0x05, c.val⟩
  | .chan n => ((s.modChan n fun x => { x with state := .idle }).reholdOwned n).countRecov ⟨0x08, n.val⟩
  | .core k => (s.modCore k fun c => { c with fenced := false }).countRecov ⟨0x09, k.val⟩
  | .mc m =>
    let s := if s.mcs[m].state ≠ .idle ∧ s.mcs[m].state ≠ .check then s.mcStop m else s
    (s.modMc m fun x => { x with fenced := false, state := .idle }).countRecov ⟨0x0A, m.val⟩

/-- A fault no longer fences an object. -/
def State.unfence (s : State) (o : Obj) (h : Option UnitId) : State :=
  if s.prop.fences.contains (o, h) then
    let s := { s with prop := { s.prop with fences := s.prop.fences.erase (o, h) } }
    if s.fencedObj o then s else s.liftFence o
  else s

/-- Every fence that a fault, or degraded operation, holds. -/
def State.unfenceAll (s : State) (h : Option UnitId) : State :=
  s.each ((s.prop.fences.filter (·.2 == h)).map (·.1)) fun o s => s.unfence o h

/-! ### Classes (R413, R416, R419, R420) -/

/-- The causes whose class is fixed in hardware (R413). -/
def fixedCause (c : Nat) : Bool := decide (0xF0 ≤ c) && decide (c ≤ 0xF3)

/-- The default class of a cause (Tables 14-2, 15-6 and 16-2). -/
def defaultClass (c : Nat) : Nat :=
  if fixedCause c then 5
  else if c = 0xB0 ∨ c = 0xBA then 4
  else if [0x02, 0x05, 0x06, 0x20, 0x7A, 0x7B, 0x7C, 0x82, 0x88, 0x8D, 0x90, 0x91, 0x92, 0x94, 0x95, 0x96, 0xA8, 0xB1, 0xBB, 0xBC, 0xBF, 0xC2,
      0xC5].contains c then 1
  else 0

/-- The class map: class and ESC of a cause (R413). -/
def State.classOf (s : State) (c : Nat) : Nat × Bool :=
  match s.prop.cmap.find? (·.1 == c) with
  | some e => (e.2.1, e.2.2)
  | none => (defaultClass c, c == 0x40)

/-- An entry of the class map is set; the fixed causes keep class 5, and no other takes it (R413). -/
def State.setCmap (s : State) (c : Nat) (v : Word) : State :=
  if fixedCause c ∨ 4 < fld v 2 0 then { s with prop := { s.prop with cfgRej := true } }
  else { s with prop := { s.prop with cmap := (c, fld v 2 0, bit v 8) :: s.prop.cmap.filter (·.1 != c) } }

/-- Degraded operation (R419). -/
def State.degrade (s : State) : State :=
  if s.prop.degraded then s
  else
    let s := { s with prop := { s.prop with degraded := true } }
    s.each ((allFin 256).filter fun n => decide (s.chans[n].bind.prio < s.prop.degPrio)) fun n s => s.fenceObj (.chan n) none

/-- Grave operation (R420). -/
def State.goGrave (s : State) : State :=
  if s.prop.grave then s
  else
    let s := { s with prop := { s.prop with grave := true } }
    let s := s.each (allFin 16) fun c s => s.fenceObj (.comb c) none
    let s := s.each (allFin 256) fun n s => s.fenceObj (.chan n) none
    let s := s.each (allFin 64) fun m s => s.fenceObj (.mc m) none
    s.openDe 0xF

/-- The reaction of a class, to the scope of its unit (R416). -/
def State.react (s : State) (u : UnitId) (cls : Nat) : State :=
  if cls = 5 then s.goGrave
  else
    let s := s.each (s.scope u (Nat.min cls 3)) fun o s => s.fenceObj o (some u)
    if cls = 4 then s.degrade else s

/-! ### Level causes (Tables 14-2, 15-6, 16-2) -/

/-- The level causes. -/
def isLevel (c : Nat) : Bool :=
  [0x02, 0x05, 0x20, 0x7A, 0x7C, 0x82, 0x88, 0x91, 0x92, 0x94, 0x95, 0x96, 0xB0, 0xB9, 0xBA, 0xBC, 0xBE, 0xBF, 0xC1, 0xC2, 0xC4, 0xC5, 0xC6].contains c

/-- The condition of a level cause persists. -/
def State.levelHolds (s : State) (u : UnitId) (c : Nat) : Bool :=
  let p := s.ports[(finOf 128 u.index : PortIx)]
  let j := s.pairs[(finOf 64 (u.index / 2) : PairIx)]
  let q := s.qps[(finOf 512 u.index : QpIx)]
  match c with
  | 0x02 => p.st.ilim
  | 0x05 => p.o.therm
  | 0x20 => p.c.loss
  | 0x7A => q.valid && cdiff q.d q.c == q.depth
  | 0x7C => q.refused
  | 0x82 => !s.hq.link
  | 0x88 => s.tick.link.state != .locked
  | 0x91 => j.auxOpen
  | 0x92 => j.auxOpen != j.coil
  | 0x94 => s.rx.disc
  | 0x95 => s.rx.deDis.getLsbD u.index
  | 0x96 => s.rx.slow
  | 0xB0 => !s.psu.rail
  | 0xB9 => s.fan.thermSoft || s.fan.hot5
  | 0xBA => decide (s.fan.left < 0)
  | 0xBC => s.fan.fanFail
  | 0xBE => s.fan.hot.getLsbD u.index
  | 0xBF => s.fan.overload
  | 0xC1 => decide (s.psu.cap < 1500)
  | 0xC2 => decide (32 < s.gauge.iso[(finOf 16 u.index : CombIx)])
  | 0xC4 => decide (200 < (s.gauge.zen[(finOf 16 u.index : CombIx)]).natAbs)
  | 0xC5 => decide (s.gauge.slack[clusterOf (finOf 16 u.index)] < 80) && s.gauge.volt[clusterOf (finOf 16 u.index)] == 90
  | 0xC6 => decide (s.gauge.life.1 < s.gauge.lifeWarn)
  | _ => false

/-! ### Taking a report (R421, R422, R426, R427) -/

/-- The class that escalation gives a report of class k, 0 to 3, by the slots its unit holds (R422). -/
def raised (slots : List (Nat × Nat)) (k : Nat) : Nat :=
  ((List.range 4).find? fun c => decide (k ≤ c) && !(slots.any (·.1 == c))).getD 4

/-- Two reports are of one unit and within 2 µs of each other (R434). -/
def meets (a b : Report) : Bool := a.u == b.u && decide (a.ts ≤ b.ts + 8000) && decide (b.ts ≤ a.ts + 8000)

/-- A waiting report may be taken now: reports of one unit keep their order (R411), and an injected one lets a coincident real one go
first (R434). `before` are those that arrived ahead of it. -/
def mayTake (all before : List Report) (r : Report) : Bool :=
  match r.inj with
  | some _ => !(before.any (·.u == r.u)) && !(all.any fun x => x.inj.isNone && meets x r)
  | none => !(before.any fun x => x.u == r.u && (x.inj.isNone || !meets x r))

/-- The class that ranks a waiting report (R421). -/
def State.rankOf (s : State) (r : Report) : Nat :=
  match r.inj with
  | some (some k) => k
  | _ => (s.classOf r.cause).1

/-- The first of two reports waiting in one cycle (R421). -/
def State.firstOf (s : State) (a b : Report) : Report :=
  if s.rankOf a ≠ s.rankOf b then (if s.rankOf b < s.rankOf a then a else b)
  else if a.u.utype ≠ b.u.utype then (if a.u.utype < b.u.utype then a else b)
  else if b.u.index < a.u.index then b else a

/-- The report that Propolis takes next (R421). -/
def State.nextReport (s : State) : Option Report :=
  let all := s.prop.reports
  ((all.mapIdx fun i r => (all.take i, r)).filter fun x => mayTake all x.1 x.2).foldl
    (fun b x => match b with | none => some x.2 | some y => some (s.firstOf y x.2)) none

/-- A record goes into the log, over the oldest if 1,024 are held (R427). -/
def Prop_.push (p : Prop_) (r : FRec) : Prop_ :=
  if p.log.length < 1024 then { p with log := p.log ++ [r], head := (r.fseq + 1) % 2 ^ 32 }
  else
    let gone := (p.log.head?.map fun x => !x.acked).getD false
    { p with log := p.log.drop 1 ++ [r], head := (r.fseq + 1) % 2 ^ 32
             lost := if gone then satInc p.lost else p.lost, ovf := p.ovf || (gone && p.lost == 0xFFFFFFFE) }

/-- The Supervisor firmware runs (R490, R494). -/
def State.firmware (s : State) : Bool := s.glb.image && !s.cast.fwHalt

/-- Propolis takes a report: its class and escalation, its record, its reaction, its request on vector 0 (R416, R421 to R429, R434).
The answer also says whether the record is of class 1 or above. -/
def State.takeReport (s : State) (r : Report) : State × Bool :=
  let (mapc, esc) := s.classOf r.cause
  let base := s.rankOf r
  let late := r.inj.isSome && s.prop.log.any fun x => x.r.inj.isNone && meets x.r r
  let coin := late || (r.inj.isNone && s.prop.reports.any fun x => x.inj.isSome && meets x r)
  let x := s.punit r.u
  let climbs := !late && decide (base < 4) && (base != 0 || esc)
  let cls := if climbs then raised x.slots base else base
  let fseq := s.prop.head
  let s := { s with prop := { s.prop with reports := s.prop.reports.erase r } }
  let s := { s with prop := s.prop.push ⟨r, fseq, mapc, cls, decide (base < cls), coin, false, s.recovOf r.u⟩ }
  let s := if late then s else
    let x := { x with slots := if climbs && decide (cls < 4) then (cls, fseq) :: x.slots else x.slots, cls := Nat.max x.cls cls
                      level := if isLevel r.cause && !x.level.contains r.cause then r.cause :: x.level else x.level }
    let s := s.setUnit x
    let s := if cls = 4 then { s with prop := { s.prop with open4 := (fseq, r.u) :: s.prop.open4 } } else s
    if cls = 0 then s else s.react r.u cls
  let s := if s.prop.irqMin ≤ cls then s.reqVec 0 else s
  (s, decide (1 ≤ cls))

/-- Registers that ON_FAULT may write (Table 17-9): the class map and the quiet periods. Others are discarded. -/
def State.hookFault (s : State) (h : HookWrites) : State :=
  s.each h fun (a, v) s =>
    let a := a.toNat
    if 0x8100 ≤ a ∧ a < 0x8500 ∧ a % 4 = 0 then s.setCmap ((a - 0x8100) / 4) v
    else if 0x8010 ≤ a ∧ a < 0x8020 ∧ a % 4 = 0 then
      if 1 ≤ v.toNat ∧ v.toNat ≤ 3600000 then { s with prop := { s.prop with quiet := s.prop.quiet.set ((a - 0x8010) / 4 % 4) v.toNat (Nat.mod_lt _ (by decide)) } }
      else { s with prop := { s.prop with cfgRej := true } }
    else s

/-- FAULT_REPORT (R416, R421, R426): after a record of class 1 or above the ON_FAULT hook runs (R493). -/
def execFaultReport (h : HookWrites) (s : State) : Res := liveR s fun s =>
  match s.nextReport with
  | none => s
  | some r =>
    let (s, hook) := s.takeReport r
    if hook && s.firmware then s.hookFault h else s

/-! ### Recovery (R423 to R425) -/

/-- Degraded operation ends when no class-4 reaction remains. -/
def State.endDegraded (s : State) : State :=
  if s.prop.degraded && !(s.prop.units.any (·.cls == 4)) then
    let s := { s with prop := { s.prop with degraded := false } }
    if s.prop.grave then s else s.unfenceAll none
  else s

/-- A unit's active reaction ends, with every class-1 to class-3 reaction of the unit; a queue fault clears (R345). -/
def State.endReaction (s : State) (u : UnitId) : State :=
  let x := s.punit u
  let s := (s.setUnit { x with cls := 0, level := [] }).unfenceAll (some u)
  let s := s.countRecov u
  let s := if u.utype = 0x0B then s.modQp (finOf 512 u.index) fun q => { q with fault := false } else s
  s.endDegraded

/-- RECOVERY: the quiet period of the active class has passed, no level cause persists and no report of the unit waits; a class-4 reaction
also needs every class-4 record acknowledged. Grave operation does not end (R420, R423, R435). -/
def execRecovery (u : UnitId) (s : State) : Res := liveR s fun s =>
  let x := s.punit u
  if x.cls = 0 ∨ 5 ≤ x.cls ∨ x.level.any (s.levelHolds u) ∨ s.prop.reports.any (·.u == u) ∨ (x.cls = 4 ∧ s.prop.open4 ≠ []) then s
  else s.endReaction u

/-! ### Acknowledgement (R430) -/

/-- The record's number is named by an acknowledgement. -/
def ackHit (fseq : Nat) (upto : Bool) (f : Nat) : Bool := if upto then decide (cdiff fseq f < 2 ^ 31) else f == fseq

/-- The unacknowledged records that are named: those in the log, in slots and of class 4. -/
def Prop_.ackSet (p : Prop_) (fseq : Nat) (upto : Bool) : List Nat :=
  (((p.log.filter fun x => !x.acked).map (·.fseq) ++ p.units.flatMap (fun x => x.slots.map (·.2)) ++ p.open4.map (·.1)).filter
    (ackHit fseq upto)).eraseDups

/-- Records are acknowledged, and their slots empty. -/
def Prop_.ack (p : Prop_) (fseq : Nat) (upto : Bool) : Prop_ :=
  { p with log := p.log.map fun x => if ackHit fseq upto x.fseq then { x with acked := true } else x
           units := p.units.map fun x => { x with slots := x.slots.filter fun y => !ackHit fseq upto y.2 }
           open4 := p.open4.filter fun y => !ackHit fseq upto y.1 }

/-! ### Injection (R432, R433) -/

/-- Factory test mode (R432). -/
def State.factoryMode (s : State) : Bool := s.prop.strap && s.prop.unlocked

/-- Causes that Tables 14-2, 15-6 and 16-2 allow for a unit type; CNT_SAT for the owners of saturating counters (R403). -/
def causeOk (c ut : Nat) : Bool :=
  match ut with
  | 0x01 => [0x01, 0x02, 0x03, 0x04, 0x05, 0x06, 0x07, 0x13, 0x14, 0x18, 0x1C, 0x21, 0x24, 0x31, 0x32, 0x33, 0xA1, 0xC3].contains c
  | 0x02 => c == 0x20
  | 0x03 => [0x90, 0x91, 0x92].contains c
  | 0x04 => c == 0x8C || c == 0x8D
  | 0x05 => [0xF0, 0xBE, 0xC2, 0xC4].contains c
  | 0x08 => (decide (0x40 ≤ c) && decide (c ≤ 0x4F)) || [0x61, 0x62, 0x68, 0xA1].contains c
  | 0x09 => c == 0xA8 || c == 0xC5
  | 0x0A => c == 0x70 || c == 0xA1
  | 0x0B => decide (0x78 ≤ c) && decide (c ≤ 0x7C)
  | 0x0C => c == 0x80 || c == 0x81
  | 0x0D => c == 0x82
  | 0x10 => [0x88, 0x89, 0xA1].contains c
  | 0x11 => c == 0x94
  | 0x12 => c == 0x95
  | 0x13 => [0x96, 0xF1, 0xA1].contains c
  | 0x14 => c == 0x98 || c == 0xA1
  | 0x15 => c == 0xA0
  | 0x18 => [0xB1, 0xF2, 0xB8, 0xBB, 0xC1].contains c
  | 0x19 => c == 0xB0
  | 0x1A => [0xB9, 0xBA, 0xBC, 0xBD, 0xBF].contains c
  | 0x1B => [0xF3, 0xC0, 0xC6, 0xC7].contains c
  | _ => false

/-- The report that PROP_INJ names is allowed; class 5 is for the fixed causes alone (R422). -/
def State.injOk (s : State) (cls : Option Nat) : Bool :=
  let c := fld s.prop.inj 31 24
  let u : UnitId := ⟨fld s.prop.inj 23 16, fld s.prop.inj 15 0⟩
  unitOk u && causeOk c u.utype && (cls.getD 0 < 5 || (fixedCause c && cls == some 5))

/-- The bytes of ASCII text. -/
def ascii (t : String) : List Byte := t.toList.map fun c => BitVec.ofNat 8 c.toNat

/-- The token is valid (R432). -/
def tokenOk (b : List Byte) : Bool :=
  slice b 0 4 == ascii "PTOK" && slice b 4 16 == Config.serial.toList && slice b 20 44 == zeros 44 &&
    Config.ecdsaOk Config.factoryKey.toList (Config.sha256 (slice b 0 64)) (slice b 64 64)

/-- UNLOCK: the token at PROP_INJ_TOK is verified. -/
def State.verifyToken (s : State) : State :=
  let a := s.prop.tok.toNat
  if a + 128 ≤ localEnd ∧ tokenOk (Memory.read s.lmem a 128) then { s with prop := { s.prop with unlocked := true } }
  else { s with prop := { s.prop with tokenErr := true } }

/-- A write of PROP_INJ_CTRL (R432, R433): a GO that is not allowed discards it as a whole. -/
def State.wrInjCtrl (s : State) (v : Word) : State :=
  let cls := if bit v 3 then some (fld v 2 0) else none
  if bit v 31 && (!s.factoryMode || !s.injOk cls) then { s with prop := { s.prop with cfgRej := true } }
  else
    let p := s.prop
    let s := { s with prop := { p with tokenErr := p.tokenErr && !bit v 10, clsEn := bit v 3, cls := fld v 2 0 } }
    let s := if bit v 31 then
        { s with prop := { s.prop with reports := s.prop.reports ++
            [⟨⟨fld p.inj 23 16, fld p.inj 15 0⟩, fld p.inj 31 24, p.injDetail.toNat % 65536, 0, s.now, some cls⟩] } }
      else s
    if bit v 30 then s.verifyToken else s

/-- UNLOCK (R432). -/
def execUnlock (_a : Agent) (v : Word) (s : State) : Res := live s fun s => s.wrInjCtrl v

/-- GO (R433). -/
def execGo (_a : Agent) (v : Word) (s : State) : Res := live s fun s => s.wrInjCtrl v

/-- STRAP: the strap is removed (R432). -/
def execStrap (s : State) : Res := live s fun s => { s with prop := { s.prop with strap := false } }

/-- STRAP_FITTED (R537). -/
def execStrapFitted (s : State) : Res := live s fun s => { s with prop := { s.prop with strap := true } }

/-- ISO_BREACH (R415). -/
def execIsoBreach (c : CombIx) (s : State) : Res := live s fun s => s.report 0x05 c.val 0xF0 0 0

/-! ### What is shown -/

/-- PROP_STAT (Table 14-9). -/
def State.propStat (s : State) : Word :=
  toW (putb s.factoryMode 6 + putb s.prop.ovf 5 + putb s.prop.grave 3 + putb s.prop.degraded 2 + putb s.prop.cfgRej 0)

/-- PROP_UNACK. -/
def Prop_.unack (p : Prop_) : Nat := (p.log.filter fun x => !x.acked).length

/-- A record as the log gives it (Table 14-4). -/
def FRec.bytes (x : FRec) : List Byte :=
  leBytes 8 x.r.ts ++ leBytes 4 x.fseq ++ leBytes 1 x.r.cause ++ leBytes 1 (put x.map 4 + x.cls) ++ leBytes 1 x.r.u.utype ++
    leBytes 1 (128 + putb x.r.inj.isSome 6 + putb x.coin 5 + putb x.esc 4 + putb x.acked 3) ++ leBytes 2 x.r.u.index ++
    leBytes 2 x.r.detail ++ leBytes 4 x.r.data.toNat ++ leBytes 2 x.recov ++ zeros 6

/-- The FAULT log (Table 14-5). -/
def State.faultLog (s : State) : List Byte :=
  let p := s.prop
  leBytes 4 p.head ++ leBytes 4 ((p.log.head?.map (·.fseq)).getD p.head) ++ leBytes 4 p.log.length ++ leBytes 4 p.unack ++
    leBytes 4 p.lost ++ leBytes 4 s.propStat.toNat ++ zeros 40 ++ p.log.flatMap FRec.bytes

end Sys2Proof.Machine
end

