-- ==== Sys2Proof/Machine/Hostq.lean ====
section
/-! DEFINITION. The host interface (chapter 11): doorbells, fetching and its checks, completion records, vectors, D3hot, resets of the
function, BAR2. -/

namespace Sys2Proof.Machine

/-! ### Doorbells and the admin queue (R330 to R333) -/

/-- A queue pair has nothing outstanding (R354). -/
def Qp.idle (x : Qp) : Bool := x.t == x.f && x.f == x.d && x.done.isEmpty && x.waiting.isEmpty

/-- A completion ring is full (R344). -/
def Qp.full (x : Qp) : Bool := cdiff x.d x.c == x.depth

/-- A refused doorbell write (R333). -/
def State.doorbellErr (s : State) (q : QpIx) : State :=
  if !s.qps[q].valid then { s with hq := { s.hq with dbRej := true } }
  else (s.modQp q fun x => { x with dbErr := true }).report 0x0B q.val 0x78 0 0

/-- DB_SQ_TAIL (R333): a write of the present tail has no effect; the doorbell crosses as a pulse (R406). -/
def State.wrTail (s : State) (q : QpIx) (v : Word) : State :=
  let x := s.qps[q]
  let n := v.toNat
  if x.valid && decide (cdiff n x.t ≤ x.depth) && decide (cdiff n x.f ≤ x.depth) then
    if n = x.t then s else (s.modQp q fun x => { x with t := n, bells := (n, s.now) :: x.bells }).pulse 16
  else s.doorbellErr q

/-- DB_CQ_HEAD (R333); the first accepted write clears STALL (R345). -/
def State.wrHead (s : State) (q : QpIx) (v : Word) : State :=
  let x := s.qps[q]
  if x.valid && decide (cdiff v.toNat x.c ≤ cdiff x.d x.c) then s.modQp q fun x => { x with c := v.toNat, stall := false, faulted := false }
  else s.doorbellErr q

/-- DB_SQ_TAIL. -/
def execDbSqTail (_a : Agent) (q : QpIx) (v : Word) (s : State) : Res := live s fun s => s.wrTail q v

/-- DB_CQ_HEAD. -/
def execDbCqHead (_a : Agent) (q : QpIx) (v : Word) (s : State) : Res := live s fun s => s.wrHead q v

/-- A write of HQ_CTRL (R332): enabling needs ADM_RDY, disabling an idle queue. -/
def State.wrHqCtrl (s : State) (v : Word) : State :=
  if bit v 0 then
    if s.hq.admEn || !s.hq.admRdy then s
    else
      let h := s.hq
      let x : Qp := { valid := true, sq := h.admSq.toNat, cq := h.admCq.toNat, head := h.admHead.toNat, dlog := h.admCfg }
      ({ s with hq := { h with admEn := true }, qps := s.qps.set 0 x }).hostWrite x.head (zeros 4)
  else if !s.hq.admEn then s
  else if s.qps[(0 : QpIx)].idle && s.hq.running.isNone && s.hq.image.isNone then
    { s with hq := { s.hq with admEn := false }, qps := s.qps.set 0 {} }
  else { s with hq := { s.hq with wrBusy := true } }

/-- ADM_EN (R332). -/
def execAdmEn (_a : Agent) (v : Word) (s : State) : Res := live s fun s => s.wrHqCtrl v

/-- ADM_RDY (R329). -/
def execAdmRdy (s : State) : Res := live s fun s => { s with hq := { s.hq with admRdy := true } }

/-! ### Submission entries (R335 to R337) -/

/-- An entry as fetched (Table 11-3). -/
def parseCmd (q : QpIx) (k : Nat) (b : List Byte) : Cmd :=
  ⟨q, k, leAt b 0 1, leAt b 1 1 % 2 == 1, leAt b 2 2, leAt b 4 2, leAt b 8 8, b.drop 16, 0⟩

/-- The number in bytes ofs to ofs + n - 1 of an entry. -/
def Cmd.at_ (c : Cmd) (ofs n : Nat) : Nat := leAt c.param (ofs - 16) n

/-- The operations that a queue accepts (Tables 11-4 and 11-8). -/
def opcOk (q : QpIx) (opc : Nat) : Bool :=
  if q.val = 0 then decide (0x80 ≤ opc) && decide (opc ≤ 0x8C) else decide (1 ≤ opc) && decide (opc ≤ 4)

/-- PARAM bytes that Table 11-8 names. -/
def paramNamed (opc i : Nat) : Bool :=
  match opc with
  | 0x81 => decide (i ≤ 32) || i == 34 || i == 35
  | 0x83 => decide (i ≤ 21)
  | 0x84 => decide (i ≤ 31)
  | 0x85 => i == 16 || (decide (18 ≤ i) && decide (i ≤ 23))
  | 0x86 => i == 16 || i == 18 || i == 19
  | 0x87 => i == 16 || (decide (20 ≤ i) && decide (i ≤ 27))
  | 0x88 => decide (i ≤ 20)
  | 0x8A => decide (i ≤ 23)
  | 0x8B => decide (i ≤ 19)
  | _ => false

/-- The lowest of some byte offsets. -/
def lowest (l : List Nat) : Option Nat := l.foldl (fun b x => match b with | none => some x | some y => some (Nat.min x y)) none

/-- Offsets with a reserved bit, a nonzero zero-field or a reserved encoding (cause RESERVED, R337). -/
def Cmd.reserved (c : Cmd) (b : List Byte) : List Nat :=
  let t (x : Bool) (o : Nat) : List Nat := if x then [o] else []
  t (2 ≤ leAt b 1 1) 1 ++
  t (c.target != 0 && [0x04, 0x80, 0x84, 0x85, 0x86, 0x87, 0x88, 0x8A, 0x8B, 0x8C].contains c.opc) 4 ++
  t (leAt b 6 2 != 0) 6 ++
  t (c.addr != 0 && [0x02, 0x04, 0x82, 0x83, 0x85, 0x86, 0x88, 0x89, 0x8B].contains c.opc) 8 ++
  ((List.range 48).map (· + 16)).filter (fun i => !paramNamed c.opc i && leAt b i 1 != 0) ++
  (match c.opc with
   | 0x83 =>
     t (2 ≤ c.at_ 16 1) 16 ++ t (2 ≤ c.at_ 18 1) 18 ++ t (2 ≤ c.at_ 20 1) 20 ++
       (if c.at_ 16 1 % 2 = 0 then [17, 18, 19, 20, 21].filter (fun i => c.at_ i 1 != 0) else [])
   | 0x84 =>
     let f := c.at_ 19 1
     t (8 ≤ f) 19 ++
       (if f / 2 % 2 = 0 then t (c.addr != 0) 8 ++ t (c.at_ 20 4 != 0) 20 ++ t (c.at_ 24 4 != 0) 24 else []) ++
       (if f / 4 % 2 = 1 then t (f % 2 == 1) 19 ++ t (c.at_ 28 4 != 0) 28 else [])
   | 0x85 =>
     t (c.at_ 16 1 == 0 || 3 < c.at_ 16 1) 16 ++
       (if c.at_ 16 1 = 1 then t (c.at_ 23 1 != 0) 23 ++ t (2 ≤ c.at_ 20 1 && c.at_ 21 2 == 0) 20 else [])
   | 0x86 => t (c.at_ 16 1 == 0 || 3 < c.at_ 16 1) 16
   | 0x87 => t (c.at_ 16 1 == 0 || 4 < c.at_ 16 1) 16
   | 0x88 => t (2 ≤ c.at_ 20 1) 20
   | _ => [])

/-- SLOT_SIZE (R484). -/
def slotSize : Nat := 4194304

/-- Offsets with a value outside its range or alignment (cause RANGE, R337), but for CREATE_QP and DESTROY_QP.
A limit on the sum of two fields names the lower one (log entry 28). -/
def Cmd.ranges (c : Cmd) : List Nat :=
  let t (x : Bool) (o : Nat) : List Nat := if x then [o] else []
  match c.opc with
  | 0x01 | 0x02 | 0x89 => t (256 ≤ c.target) 4
  | 0x03 => t (64 ≤ c.target) 4
  | 0x80 => t (c.addr % 4096 != 0 || !chanAddrOk c.addr 4096) 8
  | 0x83 => t (256 ≤ c.target) 4 ++ t (16 ≤ c.at_ 17 1) 17 ++ t (8 ≤ c.at_ 19 1) 19 ++ t (64 ≤ c.at_ 21 1) 21
  | 0x84 =>
    let f := c.at_ 19 1
    let len := c.at_ 24 4
    t (f / 2 % 2 == 1 && !chanAddrOk c.addr len) 8 ++ t (c.at_ 16 2 == 0) 16 ++ t (32 ≤ c.at_ 18 1) 18 ++ t (f / 2 % 2 == 1 && f / 4 % 2 == 1) 19 ++
      (if f / 2 % 2 = 1 then
        t (c.at_ 20 4 % 4 != 0 || 65536 < c.at_ 20 4 + len) 20 ++ t (len % 4 != 0 || len < 4 || 65536 < len) 24 else []) ++
      t (f / 4 % 2 == 0 && (c.at_ 28 4 % 4 != 0 || 0xFFFC < c.at_ 28 4)) 28
  | 0x85 =>
    let v := c.at_ 20 4
    t (if c.at_ 16 1 = 1 then 512 < c.at_ 18 2 else c.at_ 18 2 != 0) 18 ++
      t (match c.at_ 16 1 with | 2 => v < 1 || 60000 < v | 3 => v < 2 || 1000 < v | _ => false) 20
  | 0x86 => t (if c.at_ 16 1 = 1 then 512 < c.at_ 18 2 else c.at_ 18 2 != 0) 18
  | 0x87 =>
    let len := c.at_ 24 4
    t (c.addr % 4 != 0 || !chanAddrOk c.addr len) 8 ++ t (c.at_ 20 4 % 4 != 0) 20 ++ t (len % 4 != 0 || len < 4 || 1048576 < len) 24
  | 0x8A =>
    let len := c.at_ 20 4
    t (!chanAddrOk c.addr len) 8 ++ t (c.at_ 16 4 % 4096 != 0 || slotSize < c.at_ 16 4 + len) 16 ++
      t (len % 4096 != 0 || len < 4096 || 1048576 < len) 20
  | 0x8C => t (c.addr % 16 != 0 || !chanAddrOk c.addr 16) 8
  | _ => []

/-- What an entry is refused with when it is fetched: cause and RESULT (R337, R341). -/
def entryFault (c : Cmd) (b : List Byte) : Option (Nat × Nat) :=
  if !opcOk c.q c.opc then some (0x01, 0)
  else match lowest (c.reserved b) with
    | some o => some (0x02, o)
    | none => (lowest c.ranges).map fun o => (0x03, o)

/-! ### Fetching (R342, R343, R546) -/

/-- Entries of a queue may be fetched (R343). -/
def State.fetchable (s : State) (q : QpIx) : Bool :=
  let x := s.qps[q]
  x.valid && !x.refused && x.t != x.f && decide (cdiff x.f x.d < x.depth) && decide (cdiff x.d x.c < x.depth) &&
    (q.val == 0 || decide (s.inflight < 16384))

/-- How many entries one turn reads (R342, R343). -/
def State.fetchN (s : State) (q : QpIx) : Nat :=
  let x := s.qps[q]
  let n := Nat.min (Nat.min 4 (cdiff x.t x.f)) (x.depth - cdiff x.f x.d)
  if q.val = 0 then n else Nat.min n (16384 - s.inflight)

/-- The queue whose turn it is: the admin queue ahead of the others, which take turns (R342). -/
def State.fetchTurn (s : State) : Option QpIx :=
  if s.fetchable 0 then some 0
  else ((List.range 511).map fun i => (finOf 512 (1 + (s.blk.lastQ.val + i) % 511) : QpIx)).find? fun q => s.fetchable q

/-- The entries that were read are fetched: refused ones end at once (R337). -/
def State.takeEntries (s : State) (q : QpIx) : Nat → List Byte → State
  | 0, _ => s
  | n + 1, b =>
    let e := b.take 64
    let c := { parseCmd q s.qps[q].f e with seq := s.blk.fetched }
    let s := { s with blk := { s.blk with fetched := s.blk.fetched + 1 } }.modQp q fun x => { x with f := (x.f + 1) % 2 ^ 32 }
    let s := match entryFault c e with
      | some (cause, res) => s.invalid c cause res
      | none => s.modQp q fun x => { x with waiting := x.waiting ++ [c] }
    State.takeEntries s q n (b.drop 64)

/-- A read of submission entries returns or is refused (R546). -/
def State.sqRead (s : State) (q : QpIx) (r : ReadRes) : Option State :=
  let n := s.fetchN q
  match r with
  | .ok b =>
    if b.length = 64 * n then
      let s := s.modQp q fun x => { x with refused := false }
      let s := if q.val = 0 then s else { s with blk := { s.blk with lastQ := q } }
      some (s.takeEntries q n b)
    else none
  | _ => some (if s.qps[q].refused then s else (s.modQp q fun x => { x with refused := true }).report 0x0B q.val 0x7C 0 0)

/-- The host interface makes requests on the link (R350, R362, R440). -/
def State.linkReads (s : State) : Bool := s.hq.issues && s.hq.link && !s.hq.d3

/-- SQ_FETCH (R343). -/
def execSqFetch (q : QpIx) (r : ReadRes) (s : State) : Res :=
  if s.psu.bind = .off ∨ !s.linkReads ∨ s.fetchTurn ≠ some q then .next s
  else match s.sqRead q r with
    | some s => .next s
    | none => .fault (.malformed "SQ_FETCH")

/-- SQ_READ_RETRY (R546): reads of the queue are being refused. -/
def execSqReadRetry (q : QpIx) (r : ReadRes) (s : State) : Res :=
  let ok := (s.modQp q fun x => { x with refused := false }).fetchable q
  if s.psu.bind = .off ∨ !s.linkReads ∨ !s.qps[q].refused ∨ !ok then .next s
  else match s.sqRead q r with
    | some s => .next s
    | none => .fault (.malformed "SQ_READ_RETRY")

/-! ### Completion records (R338, R339, R344 to R346) -/

/-- A completion record (Table 11-5). -/
def Done.bytes (x : Done) : List Byte :=
  leBytes 8 x.ts ++ leBytes 2 x.cid ++ leBytes 1 x.status ++ leBytes 1 x.detail ++ leBytes 4 x.result

/-- The record of the entry n places behind d, while the ring has room for it (R339). -/
def Qp.doneAt (x : Qp) (n : Nat) : Option Done :=
  if x.valid && decide (cdiff x.d x.c + n < x.depth) then x.done.find? (·.k == (x.d + n) % 2 ^ 32) else none

/-- The record that a queue writes next: that of entry d. -/
def Qp.nextDone (x : Qp) : Option Done := x.doneAt 0

/-- The vector of a queue; none for 0 on an I/O queue (R346, Table 11-8). -/
def Qp.vector (q : QpIx) (x : Qp) : Option VecIx := if q.val = 0 then some 0 else if x.vec = 0 then none else some (finOf 513 x.vec)

/-- The vector that a record requests. -/
def Qp.request (q : QpIx) (x : Qp) (r : Done) : Option VecIx := if r.noirq then none else Qp.vector q x

/-- The next record of a queue and the done-head word behind it are written (R339); a write that the link refuses is lost, is reported and
counts as written (R546). -/
def State.recordOut (s : State) (q : QpIx) (no : RecordRefusal) : State :=
  let x := s.qps[q]
  match x.nextDone with
  | none => s
  | some r =>
    let d := (x.d + 1) % 2 ^ 32
    let s := if no.record || !s.hq.link then s.report 0x0B q.val 0x7B 0 0 else s.hostWrite (x.cq + x.d % x.depth * 16) r.bytes
    let s := if no.head || !s.hq.link then s.report 0x0B q.val 0x7B 0 0 else s.hostWrite x.head (leBytes 4 d)
    s.modQp q fun x =>
      { x with d := d, done := x.done.filter (·.k != r.k), bells := x.bells.filter fun b => decide (cdiff d b.1 = 0 ∨ 2 ^ 31 ≤ cdiff d b.1) }

/-- Requests on the vectors of records written (R346). -/
def State.requestAll (s : State) (vs : List VecIx) : State := s.each vs fun v s => s.reqVec v

/-- Records of a queue that wait in D3hot. -/
def Hostq.recordsHeld (h : Hostq) (q : QpIx) : Nat :=
  h.held.countP fun | .record r _ => r == q | .data _ _ => false

/-- COMPLETION_RECORD (R339): record, done-head word, vector request. In D3hot the record waits with the other writes (R350). -/
def execCompletionRecord (q : QpIx) (linkRefused : RecordRefusal) (s : State) : Res := live s fun s =>
  let x := s.qps[q]
  if !s.hq.issues then s
  else if s.hq.d3 then
    match x.doneAt (s.hq.recordsHeld q) with
    | none => s
    | some r => ({ s with hq := { s.hq with held := s.hq.held ++ [.record q (Qp.request q x r)] } } : State).pmeDue
  else
    match x.nextDone with
    | none => s
    | some r => (s.recordOut q linkRefused).requestAll (Qp.request q x r).toList

/-- QSTALL (R345): a full ring with a nonempty backlog for QSTALL_LIMIT. -/
def execQstall (q : QpIx) (s : State) : Res := live s fun s =>
  let x := s.qps[q]
  if x.valid && x.full && !x.done.isEmpty && !x.stall && !s.hq.d3 then (s.modQp q fun x => { x with stall := true }).report 0x0B q.val 0x79 0 0
  else s

/-- QFAULT (R345): the stall has lasted QFAULT_FACTOR times the limit. -/
def execQfault (q : QpIx) (s : State) : Res := live s fun s =>
  let x := s.qps[q]
  if x.valid && x.full && !x.done.isEmpty && x.stall && !x.faulted && !s.hq.d3 then
    (s.modQp q fun x => { x with fault := true, faulted := true }).report 0x0B q.val 0x7A 0 0
  else s

/-! ### Vectors (R347, R348) -/

/-- MODERATION_TIMER (R347). -/
def execModerationTimer (v : VecIx) (s : State) : Res := live s fun s =>
  let x := s.hq.vecs[v]
  if x.count ≠ 0 ∧ 2 ≤ x.thr then s.sendVec v else s

/-- A pending message of an unmasked vector goes (R348, R350). -/
def State.msgOut (s : State) (v : VecIx) : State :=
  let x := s.hq.vecs[v]
  if !x.pba || x.mask || s.hq.fmask then s
  else
    let s := s.modVec v fun x => { x with pba := false }
    if !s.hq.issues then s
    else if s.hq.d3 then (s.modVec v fun x => { x with due := true }).pmeDue
    else s.emit (.msix v.val x.msg)

/-- A vector's mask bit or the function mask clears. -/
def State.unmask (s : State) (v : Option VecIx) : State :=
  match v with
  | some v => (s.modVec v fun x => { x with mask := false }).msgOut v
  | none => ({ s with hq := { s.hq with fmask := false } } : State).each (allFin 513) fun v s => s.msgOut v

/-- MSIX_UNMASK: a vector's mask bit, or the function mask, clears (R348). -/
def execMsixUnmask (v : Option VecIx) (s : State) : Res := live s fun s => s.unmask v

/-! ### D3hot (R350) -/

/-- D3HOT (R350): a message already due is a cause for PME. -/
def State.toD3 (s : State) : State :=
  let s := { s with hq := { s.hq with d3 := true } }
  if s.hq.vecs.any (·.due) then s.pmeDue else s

/-- D3HOT. -/
def execD3hot (s : State) : Res := live s fun s => s.toD3

/-- The vectors that held records will request. -/
def HeldWrite.vector : HeldWrite → Option VecIx
  | .record _ v => v
  | .data _ _ => none

/-- A write that waited goes out. -/
def State.heldOut (s : State) (h : HeldWrite) : State :=
  match h with
  | .data a b => s.hostWrite a b
  | .record q _ => s.recordOut q ⟨false, false⟩

/-- The return to D0 (R350): the waiting writes in order, then every pending message and those that the records request; channels that waited
go on. -/
def State.toD0 (s : State) : State :=
  let w := s.hq.held
  let s := { s with hq := { s.hq with d3 := false, held := [] } }
  let s := s.each w fun x s => s.heldOut x
  let s := s.each ((allFin 513).filter fun v => s.hq.vecs[v].due) fun v s => (s.modVec v fun x => { x with due := false }).emit (.msix v.val s.hq.vecs[v].msg)
  (s.requestAll (w.filterMap HeldWrite.vector)).each (allFin 256) fun n s => s.chanWritesOut n

/-- D0_RETURN. -/
def execD0Return (s : State) : Res := live s fun s => s.toD0

/-- A write to host memory waits, or a message is due (R350). -/
def State.pmeCause (s : State) : Bool :=
  !s.hq.held.isEmpty || s.hq.vecs.any (·.due) ||
    s.mcs.any fun x => x.state == .running && ((x.desc.map fun b =>
      (dOp b == 1 && s.hostWaits x.cut (mAddr (dDst x b))) || (dOp b == 4 && dFlag b 7 && s.hostWaits x.cut (mAddr (dAddr b 8)))).getD false)

/-- The host clears PME_Status: PM_PME goes again while a cause remains (R350). -/
def State.pmeClear (s : State) : State :=
  let s := { s with hq := { s.hq with pme := false } }
  if s.hq.d3 && s.pmeCause then s.pmeDue else s

/-- PME_STATUS_CLEAR. -/
def execPmeStatusClear (s : State) : Res := live s fun s => s.pmeClear

/-! ### Function-level reset (R362, R363, notes to R206 and R324) -/

/-- A channel under a function-level reset: its commands go without a completion; it halts as CLEAR_CHANNEL halts it, CHECK returns to
IDLE, FENCED stays (note to R206). -/
def State.chanReset (s : State) (n : ChIx) : State :=
  let st := s.chans[n].state
  let s := (s.scoutAbort n 0xF2).modChan n fun x => { x with cur := none, pend := [], clear := none }
  match st with
  | .active | .posting | .suspended =>
    let s := ((s.modChan n fun x => { x with cut := true }).requestHalt n).chanWritesOut n
    if s.chans[n].halting && s.haltsNow n then s.haltChan n else s
  | .check => s.chanIdle n
  | _ => s

/-- The descriptor in execution is a MOVE that reads host memory. -/
def Mc.readsHost (x : Mc) : Bool :=
  (x.desc.map fun b => dOp b == 1 && (match mAddr (dSrc x b) with | .host _ => true | _ => false)).getD false

/-- A move channel under a function-level reset (R362, note to R324): a host read is abandoned, its MOVE stops there. -/
def Mc.reset (x : Mc) : Mc :=
  if x.state = .idle ∨ x.state = .check then x
  else { x with stop := true, cut := true, owner := (match x.owner with | .cmd _ => .none | o => o), desc := if x.readsHost then none else x.desc }

/-- The next slot at a start: the candidate with the higher SEQ (R486). -/
def Caston.newest (c : Caston) : Option Bool :=
  let ok (r : Option CRec) : Nat := (r.bind fun r => if r.commit then some (r.seq + 1) else none).getD 0
  if ok c.recA = 0 ∧ ok c.recB = 0 then none else some (decide (ok c.recA < ok c.recB))

/-- What an image command may change, as it stands, with the key it is to enrol. -/
def Caston.nor (c : Caston) (key : Option (List Byte)) : Nor := ⟨(c.slotA, c.slotB), (c.recA, c.recB), c.nrec, key, (c.causeA, c.causeB)⟩

/-- The key of KEY_ENROL takes the lowest empty key slot (R482). -/
def State.enrol (s : State) (key : List Byte) : State :=
  match (allFin 4).find? fun k => s.cast.keys[k].isNone with
  | some k => { s with cast := { s.cast with keys := s.cast.keys.set k (some (Config.sha256 key).toList) } }
  | none => { s with cast := { s.cast with keyFull := true } }

/-- The image command under way is over and its key, if it has one, is enrolled (R497). -/
def State.imageOver (s : State) : State :=
  let key := s.cast.before.bind (·.key)
  let s := { s with hq := { s.hq with image := none }, cast := { s.cast with before := none } }
  match key with
  | some k => s.enrol k
  | none => s

/-- Flash and causes stand as they stood. -/
def Caston.setNor (c : Caston) (b : Nor) : Caston :=
  { c with slotA := b.slots.1, slotB := b.slots.2, recA := b.recs.1, recB := b.recs.2, nrec := b.nrec
           causeA := b.causes.1, causeB := b.causes.2 }

/-- The image command under way is abandoned (R440, R499, R505). How far it came is a free value: before its commit record, after the record and
before the key it enrols, or after both (Table 17-10; log entry 104). It has no completion. -/
def State.cutImage (s : State) : State :=
  match s.cast.before with
  | none => s
  | some b =>
    let (w, s) := s.draw
    match w.toNat % 3 with
    | 0 =>
      let c := s.cast.setNor b
      { s with cast := { c with before := none, next := c.newest }, hq := { s.hq with image := none } }
    | 1 => { s with cast := { s.cast with before := none }, hq := { s.hq with image := none } }
    | _ => s.imageOver

/-- An image session that the host owns ends, and its command with it (R495, R505). -/
def State.endHostSession (s : State) : State :=
  if s.cast.owner = .host then { s with cast := { s.cast with owner := .none, staged := [] } } else s

/-- The host interface acts as at a function-level reset (R362). ADM_RDY stands again. -/
def State.hostReset (s : State) : State :=
  let h := s.hq
  let s := { s with hq := { h with held := [], d3 := false, issues := false } }
  let s := s.each (allFin 256) fun n s => s.chanReset n
  { s.cutImage.endHostSession with
    mcs := s.mcs.map Mc.reset
    qps := Vector.replicate 512 {}
    glb := { s.glb with xbusy := s.glb.xbusy.set 16 ((s.glb.xbusy[16]).1, false) }
    hq := { admRdy := true, link := h.link, issues := h.issues, mps := h.mps } }

/-- FLR (R362). -/
def execFlr (s : State) : Res := live s fun s => s.hostReset.report 0x0C 0 0x81 0 0

/-- LINK_LOSS: a hot reset, a link disable, or with `lost` a loss of link (R363). -/
def execLinkLoss (lost : Bool) (s : State) : Res := live s fun s =>
  let s := s.hostReset.report 0x0C 0 0x81 0 0
  if lost then ({ s with hq := { s.hq with link := false } } : State).report 0x0D 0 0x82 0 0 else s

/-- LINK_UP (R363). -/
def execLinkUp (s : State) : Res := live s fun s => { s with hq := { s.hq with link := true } }

/-! ### BAR2 (R328) -/

/-- A length and place that BAR2 accepts, up to the max payload size. -/
def bar2Ok (mps x n : Nat) : Bool := decide (1 ≤ n) && decide (n ≤ 128 * 2 ^ mps) && decide (x % 4096 + n ≤ 4096) && decide (x + n ≤ 0x10000000)

/-- BAR2_ACCESS (R328). -/
def execBar2Access (x : Word) (acc : Bar2Op) (ecc : Bool) (s : State) : Res := live s fun s =>
  let a := s.hq.bar2 * 0x10000000 + x.toNat
  match acc with
  | .write b => if bar2Ok s.hq.mps x.toNat b.length then s.localWrite none a b else s
  | .read n =>
    if !bar2Ok s.hq.mps x.toNat n then s
    else if ecc then (s.emit (.bar2 none)).report 0x0C 0 0x80 0 0
    else s.emit (.bar2 (some (Memory.read s.lmem a n)))

end Sys2Proof.Machine
end

