-- ==== Sys2Proof/Machine/Admin.lean ====
section
/-! DEFINITION. Commands of the admin queue (R351 to R361), but for the image commands and GET_LOG, and the I/O command NOP. -/

namespace Sys2Proof.Machine

/-- NOP (R336). -/
def execNop (q : QpIx) (s : State) : Res := live s fun s => s.takeIo q 0x04 fun c s => s.complete c stOk 0 0

/-- GLB_READY (Table 17-7). -/
def State.readyWord (s : State) : Word :=
  toW (put s.glb.comb.toNat 16 + put s.glb.ncl.toNat 8 + putb s.glb.gauge 4 + putb s.glb.reflex 3 + putb s.glb.move 2 + putb s.glb.tick 1 +
    putb s.glb.image 0)

/-- The data of an admin command go to a channel address (R169); refused on the link it ends with ACCESS_ERROR and the bytes transferred
before (R546). -/
def State.adminWrite (s : State) (c : Cmd) (b : List Byte) (refused : Option Nat) : State :=
  let done := if s.hq.link then refused else some (refused.getD 0)
  match done with
  | some n =>
    if isHost c.addr then
      let n := Nat.min n b.length
      ((if n = 0 then s else s.chanWrite c.addr (b.take n))).complete c stAccess 0x02 n
    else (s.chanWrite c.addr b).complete c stOk 0 b.length
  | none => (s.chanWrite c.addr b).complete c stOk 0 b.length

/-! ### IDENTIFY (R352) -/

/-- GLB_MOD_ID and GLB_MOD_REV (Table 18-5). The module's revision letter and digit are those of the manual's module, B1 (log entry 12). -/
def modId : Word := 0x0B5C4128
def modRev : Word := toW (put (if Config.variantF0 then 0xF0 else 0) 16 + put 0x42 8 + 0x31)

/-- A slot as the registers show it: 0 A, 1 B. -/
def slotNo (b : Option Bool) (none_ : Nat) : Nat := match b with | some true => 1 | some false => 0 | none => none_

/-- The newest commit record of a slot. -/
def State.slotRec (s : State) (b : Bool) : Option CRec := if b then s.cast.recB else s.cast.recA

/-- The IDENTIFY structure (Table 11-9). -/
def State.identity (s : State) : List Byte :=
  let seq := ((s.cast.run.bind s.slotRec).map (·.seq)).getD 0
  let head := leBytes 4 modId.toNat ++ leBytes 4 modRev.toNat ++ Config.serial.toList ++ leBytes 4 s.readyWord.toNat ++
    leBytes 2 511 ++ leBytes 2 4096 ++ leBytes 2 16384 ++ leBytes 2 513 ++ leBytes 2 256 ++ leBytes 1 64 ++ leBytes 1 16 ++
    leBytes 1 128 ++ leBytes 1 16 ++ leBytes 1 32 ++ leBytes 1 (slotNo s.cast.run 0xFF) ++ leBytes 4 seq ++ leBytes 4 slotSize ++
    leBytes 4 3584 ++ zeros 8
  let name := if s.cast.run.isSome then slice s.cast.image 32 64 else []
  let all := head ++ name
  all ++ zeros (4096 - all.length)

/-- IDENTIFY (R352). -/
def execIdentify (linkRefused : Option Nat) (s : State) : Res := live s fun s => s.takeAdm 0x80 fun c s =>
  let done := if s.hq.link then linkRefused else some (linkRefused.getD 0)
  match done, isHost c.addr with
  | some _, true => s.adminWrite c s.identity done
  | _, _ => (s.chanWrite c.addr s.identity).complete c stOk 0 0

/-! ### CREATE_QP and DESTROY_QP (R353, R354) -/

/-- CREATE_QP (R353). -/
def execCreateQp (s : State) : Res := live s fun s => s.takeAdm 0x81 fun c s =>
  let q : QpIx := finOf 512 c.target
  let t (x : Bool) (o : Nat) : List Nat := if x then [o] else []
  if c.target = 0 ∨ 512 ≤ c.target ∨ s.qps[q].valid then s.complete c stQueue 0 c.target
  else
    let bad := t (c.addr % 4096 != 0) 8 ++ t (c.at_ 16 8 % 4096 != 0) 16 ++ t (c.at_ 24 8 % 4 != 0) 24 ++
      t (c.at_ 32 1 < 4 || 12 < c.at_ 32 1) 32 ++ t (512 < c.at_ 34 2) 34
    match lowest bad with
    | some o => s.invalid c 0x03 o
    | none =>
      let s := s.modQp q fun _ =>
        { valid := true, sq := c.addr, cq := c.at_ 16 8, head := c.at_ 24 8, dlog := c.at_ 32 1, vec := c.at_ 34 2 }
      (s.hostWrite (c.at_ 24 8) (zeros 4)).complete c stOk 0 0

/-- DESTROY_QP (R354). -/
def execDestroyQp (s : State) : Res := live s fun s => s.takeAdm 0x82 fun c s =>
  let q : QpIx := finOf 512 c.target
  if c.target = 0 ∨ 512 ≤ c.target ∨ !s.qps[q].valid then s.complete c stQueue 0 c.target
  else if !s.qps[q].idle then s.invalid c 0x05 0
  else (s.modQp q fun _ => {}).complete c stOk 0 0

/-! ### BIND_CHANNEL (R168, R355) -/

/-- A channel takes a binding; the move channel it had is freed. -/
def State.setBind (s : State) (n : ChIx) (b : Bind) : State :=
  let s := match s.chans[n].bind.mc with
    | some m => s.modMc m fun x => { x with bound := none }
    | none => s
  let s := s.modChan n fun x => { x with bind := b }
  match b.mc with
  | some m => s.modMc m fun x => { x with bound := some n }
  | none => s

/-- BIND_CHANNEL (R355). -/
def execBindChannel (s : State) : Res := live s fun s => s.takeAdm 0x83 fun c s =>
  let n : ChIx := finOf 256 c.target
  let m : McIx := finOf 64 (c.at_ 21 1)
  let mv := c.at_ 16 1 % 2 == 1 && c.at_ 20 1 % 2 == 1
  if s.chans[n].state ≠ .idle then s.invalid c 0x05 0
  else if mv && s.mcs[m].bound.isSome && s.mcs[m].bound != some n then s.invalid c 0x06 0
  else if mv && s.mcs[m].state != .idle then s.invalid c 0x05 0
  else
    let b : Bind := if c.at_ 16 1 % 2 = 1 then
        { bound := true, mc := if mv then some m else none, core := finOf 16 (c.at_ 17 1), anyCore := c.at_ 18 1 % 2 == 1, prio := c.at_ 19 1 }
      else {}
    (s.setBind n b).complete c stOk 0 0

/-! ### LOAD_ROUTINE (R356) -/

/-- The cores of a mask, ascending. -/
def maskCores (m : Nat) : List CoreIx := (allFin 16).filter fun k => m / 2 ^ k.val % 2 == 1

/-- The code is read, or the read fails (R356, R546); none where the operand is no such read. -/
def State.loadCode (s : State) (c : Cmd) (r : ReadRes) : Option (Sum Nat (List Byte)) :=
  let len := c.at_ 24 4
  if c.at_ 19 1 / 2 % 2 = 0 then some (.inr [])
  else if isHost c.addr then
    match s.hq.link, r with
    | true, .ok b => if b.length = len then some (.inr b) else none
    | _, _ => some (.inl 0x01)
  else
    match r with
    | .ecc => some (.inl 0x03)
    | _ => some (.inr (Memory.read s.lmem c.addr len))

/-- A free count of bytes transferred before a failed read, below its length (log entry 9). -/
def State.partial_ (s : State) (len : Nat) : Nat × State :=
  let (w, s) := s.draw
  (w.toNat % Nat.max 1 len, s)

/-- The oldest waiting admin command of this operation, if none runs in the foreground. -/
def State.admFront (s : State) (opc : Nat) : Option Cmd :=
  match s.qps[(0 : QpIx)].waiting with
  | c :: _ => if c.opc = opc ∧ s.hq.running.isNone then some c else none
  | [] => none

/-- The front admin command is taken. -/
def State.admPop (s : State) : State := s.modQp 0 fun x => { x with waiting := x.waiting.drop 1 }

/-- LOAD_ROUTINE: the code is read and the load prepared (R356). -/
def execLoadRoutine (r : ReadRes) (s : State) : Res :=
  match s.psu.bind, s.admFront 0x84 with
  | .off, _ => .next s
  | _, none => .next s
  | _, some c =>
    let cores := maskCores (c.at_ 16 2)
    match cores.find? fun k => !s.nclReady (clusterOf k) with
    | some k => .next (s.admPop.invalid c 0x04 (8 + (clusterOf k).val))
    | none =>
      match s.loadCode c r with
      | none => .fault (.malformed "LOAD_ROUTINE")
      | some (.inl d) =>
        let (n, s) := s.admPop.partial_ (c.at_ 24 4)
        .next (s.complete c stAccess d n)
      | some (.inr b) => .next { s.admPop with hq := { s.hq with running := some c, loading := some ⟨c, b, cores⟩ } }

/-- The slot that a LOAD_ROUTINE sets (R356). -/
def loadSlot (c : Cmd) : Slot :=
  if c.at_ 19 1 / 4 % 2 = 1 then {} else { valid := true, timed := c.at_ 19 1 % 2 == 1, entry := toW (c.at_ 28 4) }

/-- CORE_HOLD: the next core of the mask, between routines, takes the code and the slot; after the last the command completes (R356). -/
def execCoreHold (k : CoreIx) (s : State) : Res := live s fun s =>
  match s.hq.loading with
  | none => s
  | some l =>
    if l.cores.head? ≠ some k ∨ s.cores[k].run.isSome ∨ s.cores[k].hold.isSome then s
    else
      let c := l.cmd
      let s := s.modCore k fun x =>
        { x with isram := Memory.write x.isram (c.at_ 20 4) l.code, slots := x.slots.set (c.at_ 18 1 % 32) (loadSlot c) (Nat.mod_lt _ (by decide)) }
      match l.cores.drop 1 with
      | [] => ({ s with hq := { s.hq with loading := none } } : State).endRunning c stOk 0 0
      | ks => { s with hq := { s.hq with loading := some { l with cores := ks } } }

/-! ### Features (R357) -/

/-- SET_FEATURE (R357). -/
def execSetFeature (s : State) : Res := live s fun s => s.takeAdm 0x85 fun c s =>
  let v := c.at_ 20 4
  let s := match c.at_ 16 1 with
    | 0x01 => s.modVec (finOf 513 (c.at_ 18 2)) fun x =>
        let m := (v % 256, v / 256 % 65536)
        if x.count = 0 then { x with thr := m.1, time := m.2, new := none } else { x with new := some m }
    | 0x02 => { s with hq := { s.hq with qstall := v } }
    | _ => { s with hq := { s.hq with qfault := v } }
  s.complete c stOk 0 0

/-- The value of a feature: of IRQ_MOD the setting last made. -/
def State.feature (s : State) (fid ix : Nat) : Nat :=
  match fid with
  | 0x01 =>
    let x := s.hq.vecs[(finOf 513 ix : VecIx)]
    let m := x.new.getD (x.thr, x.time)
    m.1 + 256 * m.2
  | 0x02 => s.hq.qstall
  | _ => s.hq.qfault

/-- GET_FEATURE (R357). -/
def execGetFeature (s : State) : Res := live s fun s => s.takeAdm 0x86 fun c s =>
  s.complete c stOk 0 (s.feature (c.at_ 16 1) (c.at_ 18 2))

/-! ### FAULT_ACK (R359, R430) -/

/-- FAULT_ACK (R430). -/
def execFaultAck (s : State) : Res := live s fun s => s.takeAdm 0x88 fun c s =>
  let upto := c.at_ 20 1 % 2 == 1
  let hits := s.prop.ackSet (c.at_ 16 4) upto
  if hits.isEmpty then s.invalid c 0x05 0
  else ({ s with prop := s.prop.ack (c.at_ 16 4) upto } : State).complete c stOk 0 hits.length

/-! ### TIME_SYNC (R361) -/

/-- The time at which the doorbell write that first made an entry fetchable arrived. -/
def Qp.doorbellAt (x : Qp) (k : Nat) : Nat :=
  ((x.bells.reverse.find? fun b => decide (0 < cdiff b.1 k) && decide (cdiff b.1 k < 2 ^ 31)).map (·.2)).getD 0

/-- TIME_SYNC (R361). -/
def execTimeSync (linkRefused : Bool) (s : State) : Res := live s fun s => s.takeAdm 0x8C fun c s =>
  let b := leBytes 8 (s.qps[(0 : QpIx)].doorbellAt c.k) ++ leBytes 8 s.now
  if isHost c.addr && (linkRefused || !s.hq.link) then s.complete c stAccess 0x02 0
  else (s.chanWrite c.addr b).complete c stOk 0 0

end Sys2Proof.Machine
end

