-- ==== Sys2Proof/Machine/Blocks.lean ====
section
/-! DEFINITION. The registers of BAR0 outside the Comb region (R508): what each shows, the fields that a read clears, and the writes. -/

namespace Sys2Proof.Machine

/-- A word whose bit i is `f i`. -/
def mapWord (f : Nat → Bool) : Word := toW ((List.range 32).foldl (fun n i => n + putb (f i) i) 0)

/-! ### TICK (R46, R51, R64) -/

/-- The Needle budget B of a period word, in cycles: its mean times 600 MHz, rounded down (R46). -/
def budgetOf (w : Word) : Nat := (fld w 17 0 * 256 + fld w 25 18) * 3 / 320

/-- TICK_CTRL.ROLE. -/
def Role.code : Role → Nat
  | .standalone => 0 | .master => 1 | .follower => 2

/-- TICK_STAT.LINK_STATE. -/
def LinkState.code : LinkState → Nat
  | .free => 0 | .acquire => 1 | .locked => 2 | .holdover => 3

/-- The snapshots that an agent has taken (R51). -/
def Tick.snapOf (t : Tick) (a : Agent) : Word × Word := if a = .supervisor then t.supSnap else t.hostSnap

/-- A word of the TICK block (Table 2-6). -/
def State.tickPeek (s : State) (a : Agent) (o : Nat) : Word :=
  let t := s.tick
  if 0x1100 ≤ o ∧ o < 0x1140 then toW t.budLast[(finOf 16 ((o - 0x1100) / 4))]
  else if 0x1140 ≤ o ∧ o < 0x1180 then toW t.budPeak[(finOf 16 ((o - 0x1140) / 4))]
  else match o with
  | 0x1000 => toW (putb t.calReq 4 + putb t.outEn 3 + putb t.discEn 2 + t.role.code)
  | 0x1004 => t.period
  | 0x1008 => t.act
  | 0x100C => toW (putb t.ovrOvf 10 + putb t.link.chainLong 9 + putb t.link.calErr 8 + putb t.link.calDone 7 + putb t.link.markerLost 6 +
      putb t.pend.isSome 5 + put (if t.role = .follower then t.link.hop else 0) 2 + t.link.state.code)
  | 0x1010 => lo32 t.now
  | 0x1014 => (t.snapOf a).1
  | 0x1018 => lo32 t.edge
  | 0x101C => (t.snapOf a).2
  | 0x1020 => toW t.link.dly
  | 0x1024 => toWi t.link.phaseErr &&& 0xFFFF
  | 0x1028 => toW (budgetOf t.act)
  | 0x102C => toW (budgetOf t.act - 1212)
  | 0x1030 => toW t.nload
  | 0x1034 => toW t.ovrCnt
  | _ => 0

/-- A period that R37 allows. -/
def periodOk (v : Word) : Bool :=
  decide (1000 ≤ fld v 17 0) && (decide (fld v 17 0 < 250000) || (fld v 17 0 == 250000 && fld v 25 18 == 0))

/-- A write of TICK_PERIOD (R37 to R39). -/
def State.wrTickPeriod (s : State) (v : Word) : State :=
  if !periodOk v then { s with glb := { s.glb with tickRej := true } }
  else
    let w := v &&& 0x03FFFFFF
    let t := s.tick
    if t.role = .follower ∨ !s.glb.tick then { s with tick := { t with period := w } }
    else { s with tick := { t with period := w, pend := some (w, 8) } }

/-- A write of TICK_CTRL by an agent that writes registers: ROLE is the image's (R53); CAL_REQ starts a measurement, in FREE only on the entry
to ACQUIRE (R56). -/
def State.wrTickCtrl (s : State) (v : Word) : State :=
  let t := s.tick
  let req := t.role == .follower && (t.calReq || bit v 4)
  let start := req && bit v 4 && t.link.state != .free && t.link.cal.isNone
  { s with tick := { t with outEn := bit v 3, discEn := bit v 2, calReq := req
                            link := if start then { t.link with cal := some (0, 0, 0) } else t.link } }

/-! ### GLB (R410, R518) -/

/-- GLB_REJ_SUM (Table 18-5). -/
def State.rejSum (s : State) : Word :=
  toW ((List.range 16).foldl (fun n c => n + putb ((portsOf (finOf 16 c)).any fun p => s.ports[p].st.cfgRej) (16 + c)) 0 +
    putb s.gauge.cfgRej 9 + putb s.psu.cfgRej 8 + putb s.fan.cfgRej 7 + putb s.prop.cfgRej 6 + putb s.rx.cfgRej 5 + putb s.blk.scRej 4 +
    putb s.blk.chRej 3 + putb s.blk.mvRej 2 + putb s.hq.cfgRej 1 + putb s.glb.tickRej 0)

/-- A word of the GLB block (Table 18-4). -/
def State.glbPeek (s : State) (o : Nat) : Word :=
  match o with
  | 0x00 => modId
  | 0x04 => modRev
  | 0x08 => s.readyWord
  | 0x0C => toW (putb s.cast.rstRej 8)
  | 0x10 => toW (putb s.glb.tickRej 0)
  | 0x14 => s.rejSum
  | 0x20 => s.glb.xovr
  | 0x24 | 0x28 | 0x2C =>
    let k := (o - 0x24) / 4
    toW ((List.range 8).foldl (fun n i => if h : 8 * k + i < 21 then n + put s.glb.xlost[8 * k + i] (4 * i) else n) 0)
  | 0x40 | 0x44 | 0x48 | 0x4C => toW (leAt Config.serial.toList (o - 0x40) 4)
  | _ => 0

/-- The lost-pulse counts of GLB_XING_LOST k clear. -/
def Glb.clearLost (g : Glb) (k : Nat) : Glb :=
  { g with xlost := g.xlost.mapFinIdx fun x n _ => if x / 8 = k then 0 else n }

/-! ### HOSTQ and doorbell pages (R364, R365) -/

/-- A word of the HOSTQ block (Table 11-13). -/
def State.hostqPeek (s : State) (o : Nat) : Word :=
  let h := s.hq
  if 0x2040 ≤ o ∧ o < 0x2080 then mapWord fun i => s.qps[(finOf 512 (8 * (o - 0x2040) + i) : QpIx)].valid
  else if 0x2080 ≤ o ∧ o < 0x20C0 then
    mapWord fun i => let x := s.qps[(finOf 512 (8 * (o - 0x2080) + i) : QpIx)]; x.valid && x.full
  else match o with
  | 0x2000 => toW (putb h.admEn 0)
  | 0x2004 => toW (putb h.accRej 4 + putb h.dbRej 3 + putb h.wrBusy 2 + putb h.admRdy 1 + putb h.cfgRej 0)
  | 0x2008 => h.admSq.truncate 32
  | 0x200C => h.admSq.extractLsb' 32 32
  | 0x2010 => h.admCq.truncate 32
  | 0x2014 => h.admCq.extractLsb' 32 32
  | 0x2018 => h.admHead.truncate 32
  | 0x201C => h.admHead.extractLsb' 32 32
  | 0x2020 => toW h.admCfg
  | 0x2024 => toW s.inflight
  | 0x2028 => toW h.bar2
  | _ => 0

/-- A 64-bit register pair with its low or high half replaced. -/
def setHalf (x : BitVec 64) (hi : Bool) (v : Word) : BitVec 64 := if hi then v ++ (x.truncate 32 : Word) else (x.extractLsb' 32 32 : Word) ++ v

/-- A write of an HQ_ADM_ register while ADM_EN is set is discarded (R332). -/
def State.admSet (s : State) (f : Hostq → Hostq) : State := if s.hq.admEn then { s with hq := { s.hq with wrBusy := true } } else { s with hq := f s.hq }

/-- A write in the HOSTQ block. -/
def State.hostqWrite (s : State) (o : Nat) (v : Word) : State :=
  match o with
  | 0x2000 => s.wrHqCtrl v
  | 0x2004 =>
    let h := s.hq
    { s with hq := { h with accRej := h.accRej && !bit v 4, dbRej := h.dbRej && !bit v 3, wrBusy := h.wrBusy && !bit v 2, cfgRej := h.cfgRej && !bit v 0 } }
  | 0x2008 => s.admSet fun h => { h with admSq := setHalf h.admSq false (v &&& 0xFFFFF000) }
  | 0x200C => s.admSet fun h => { h with admSq := setHalf h.admSq true v }
  | 0x2010 => s.admSet fun h => { h with admCq := setHalf h.admCq false (v &&& 0xFFFFF000) }
  | 0x2014 => s.admSet fun h => { h with admCq := setHalf h.admCq true v }
  | 0x2018 => s.admSet fun h => { h with admHead := setHalf h.admHead false (v &&& 0xFFFFFFFC) }
  | 0x201C => s.admSet fun h => { h with admHead := setHalf h.admHead true v }
  | 0x2020 =>
    if fld v 3 0 < 4 ∨ 12 < fld v 3 0 then { s with hq := { s.hq with cfgRej := true } } else s.admSet fun h => { h with admCfg := fld v 3 0 }
  | 0x2028 => if 13 < fld v 3 0 then { s with hq := { s.hq with cfgRej := true } } else { s with hq := { s.hq with bar2 := fld v 3 0 } }
  | _ => s

/-- A word of a doorbell page (Table 11-14). -/
def State.pagePeek (s : State) (q : QpIx) (o : Nat) : Word :=
  let x := s.qps[q]
  if !x.valid then 0
  else match o with
  | 0x00 => toW x.t
  | 0x04 => toW x.c
  | 0x08 => toW x.f
  | 0x0C => toW x.d
  | 0x10 => toW (put x.done.length 16 + putb x.fault 5 + putb x.stall 4 + putb x.full 3 + putb x.dbErr 2 + 1)
  | 0x14 => toW (if q.val = 0 then s.hq.admCfg else put x.vec 16 + x.dlog)
  | 0x18 => toW (cdiff x.f x.d)
  | _ => 0

/-- A write in a doorbell page. -/
def State.pageWrite (s : State) (q : QpIx) (o : Nat) (v : Word) : State :=
  match o with
  | 0x00 => s.wrTail q v
  | 0x04 => s.wrHead q v
  | 0x10 => if s.qps[q].valid && bit v 2 then s.modQp q fun x => { x with dbErr := false } else s
  | _ => s

/-! ### MOVE and move channel contexts (R322, R324) -/

/-- A word of a move channel context (Table 10-11). -/
def Mc.peek (x : Mc) (o : Nat) : Word :=
  match o with
  | 0x00 => toW (putb x.stop 31 + putb x.bulk 0)
  | 0x04 => toW (put x.cause 8 + putb x.ovf 7 + putb x.lact 4 + x.shown)
  | 0x08 => lo32 x.pc
  | 0x0C => hi32 x.pc
  | 0x10 => x.src.truncate 32
  | 0x14 => x.src.extractLsb' 32 32
  | 0x18 => x.dst.truncate 32
  | 0x1C => x.dst.extractLsb' 32 32
  | 0x20 => toW x.lc
  | 0x24 => toW x.lastLen
  | 0x28 => toW x.sig
  | 0x2C => toW ((x.bound.map fun n => 2 ^ 31 + n.val).getD 0)
  | _ => 0

/-- A write of a cursor or of MC_LC: outside IDLE and CHECK a change is discarded (Table 10-7). -/
def State.mcSet (s : State) (m : McIx) (same : Bool) (f : Mc → Mc) : State :=
  let x := s.mcs[m]
  if x.state = .idle ∨ x.state = .check then s.modMc m f
  else if same then s else { s with blk := { s.blk with mvBusy := true } }

/-- A write in a move channel context. -/
def State.mcWrite (s : State) (m : McIx) (o : Nat) (v : Word) : State :=
  let x := s.mcs[m]
  match o with
  | 0x00 => s.wrMcCtrl m v
  | 0x04 => s.modMc m fun x => { x with ovf := x.ovf && !bit v 7 }
  | 0x10 | 0x14 => s.mcSet m (x.peek o == v) fun x => { x with src := setHalf x.src (o == 0x14) v }
  | 0x18 | 0x1C => s.mcSet m (x.peek o == v) fun x => { x with dst := setHalf x.dst (o == 0x1C) v }
  | 0x20 => s.mcSet m (x.lc == fld v 23 0) id
  | _ => s

/-- A word of the MOVE block (Table 10-13). -/
def State.movePeek (s : State) (o : Nat) : Word :=
  match o with
  | 0x3004 => toW (putb s.bulkHeld 2 + putb s.blk.mvBusy 1 + putb s.blk.mvRej 0)
  | 0x3008 => toW s.blk.mvLoad
  | 0x3010 | 0x3014 => mapWord fun i => s.mcs[(finOf 64 (8 * (o - 0x3010) + i) : McIx)].state != .idle
  | 0x3018 | 0x301C => mapWord fun i => s.mcs[(finOf 64 (8 * (o - 0x3018) + i) : McIx)].state == .check
  | _ => 0

/-! ### CHAN, SCOUT and channel contexts (R205, R206, R292, R293) -/

/-- CH_STATE.STATE and WAIT (Table 6-14, R197). -/
def ChState.code : ChState → Nat
  | .idle => 0 | .active => 1 | .suspended => 2 | .posting => 3 | .check => 4 | .fenced => 5
def ChWait.code : ChWait → Nat
  | .executing => 0 | .waitf => 1 | .inputReady => 2 | .grant => 3 | .core => 4 | .data => 5 | .move => 6

/-- SC_STAT.OUTCOME (Table 9-5). -/
def Outcome.code : Outcome → Nat
  | .notRun => 0 | .hit => 1 | .miss => 2 | .abort => 3 | .curtailed => 4 | .depInvalid => 5

/-- CH_STATE.WAIT: what an ACTIVE channel waits for (Table 6-14). -/
def State.chWait (s : State) (n : ChIx) : Nat :=
  let x := s.chans[n]
  if x.state ≠ .active then 0
  else match x.op with
    | some o =>
      if o.core.isSome then x.wait.code
      else if !o.ready then (if x.gathering.isSome then ChWait.code .data else 0)
      else if !x.granted then ChWait.code .grant
      else if (s.opSlot x.bind.core o).timed && s.tick.phase != .input then ChWait.code .inputReady
      else ChWait.code .core
    | none =>
      match x.ent with
      | some e => if e.op = 0x80 ∧ x.wait = .executing ∧ !x.granted then ChWait.code .grant else x.wait.code
      | none => x.wait.code

/-- A word of a channel context (Tables 6-14, 9-13), CH_STATE.WAIT being given. -/
def Chan.peek (x : Chan) (wait : Nat) (o : Nat) : Word :=
  let c := x.sc
  if 0x40 ≤ o ∧ o < 0x80 then x.cx[(finOf 16 ((o - 0x40) / 4))]
  else match o with
  | 0x00 =>
    let b := x.bind
    toW (putb b.bound 31 + putb b.mc.isSome 30 + put ((b.mc.map (·.val)).getD 0) 24 + put b.core.val 16 + putb b.anyCore 15 + b.prio)
  | 0x04 => let w := x.ctrlNew.getD (x.postVec, x.ovrCont); toW (put w.1 16 + putb w.2 0)
  | 0x08 => toW (put x.pend.length 16 + put x.depth 12 + put wait 8 + putb x.ovf 7 +
      putb x.resPend 4 + x.state.code)
  | 0x0C => toW (put x.detail 16 + x.cause)
  | 0x10 => lo32 x.cce
  | 0x14 => hi32 x.cce
  | 0x18 => x.post.base.truncate 32
  | 0x1C => x.post.base.extractLsb' 32 32
  | 0x20 => toW (putb x.post.en 31 + x.post.size)
  | 0x24 => toW x.post.head
  | 0x28 => x.post.haddr.truncate 32
  | 0x2C => x.post.haddr.extractLsb' 32 32
  | 0x30 => toW x.cycLast
  | 0x34 => toW x.ovrCnt
  | 0x38 => toW x.deferCnt
  | 0x3C => toW x.recov
  | 0x80 => c.ctrl
  | 0x84 => toW (put (Nat.min 255 (c.rate.filter id).length) 24 + put c.cause 16 + putb c.grey 7 + putb c.collide 6 + putb c.ovf 5 +
      putb (c.run == .running) 4 + putb (c.run == .sealed) 3 + c.outcome.code)
  | 0x88 => c.depA
  | 0x8C => c.depB
  | 0x90 => toW c.hits
  | 0x94 => toW c.misses
  | 0x98 => toW (put c.missPort 24 + (c.missDev % 2 ^ 24).toNat)
  | 0x9C => toW (put c.peak 24 + c.cyc)
  | _ => 0

/-- A write that the channel's state may refuse (R205). -/
def State.chSet (s : State) (n : ChIx) (f : Chan → Chan) : State :=
  if s.chans[n].writable then s.modChan n f else { s with blk := { s.blk with chBusy := true } }

/-- A dependency word names reserved ports (R269). -/
def depBad (v : Word) : Bool := (List.range 4).any fun i => let b := fld v (8 * i + 7) (8 * i); decide (0x80 ≤ b) && b != 0xFF

/-- A write of CH_CTRL: in force at the next entry boundary, at once where no entry runs (R204). -/
def State.wrChCtrl (s : State) (n : ChIx) (v : Word) : State :=
  if 512 < fld v 25 16 then { s with blk := { s.blk with chRej := true } }
  else s.modChan n fun x =>
    let y := { x with ctrlNew := some (fld v 25 16, bit v 0) }
    if x.ent.isSome then y else y.boundary

/-- A write in a channel context. -/
def State.chWrite (s : State) (n : ChIx) (o : Nat) (v : Word) : State :=
  let sc (f : Scout → Scout) : State := s.modChan n fun x => { x with sc := f x.sc }
  if 0x40 ≤ o ∧ o < 0x80 then s.chSet n fun x => { x with cx := x.cx.set (finOf 16 ((o - 0x40) / 4)) v }
  else match o with
  | 0x04 => s.wrChCtrl n v
  | 0x08 => s.modChan n fun x => { x with ovf := x.ovf && !bit v 7 }
  | 0x18 => s.chSet n fun x => { x with post := { x.post with base := setHalf x.post.base false (v &&& 0xFFFFFFF0) } }
  | 0x1C => s.chSet n fun x => { x with post := { x.post with base := setHalf x.post.base true v } }
  | 0x20 => s.wrPostCfg n v
  | 0x28 => s.chSet n fun x => { x with post := { x.post with haddr := setHalf x.post.haddr false (v &&& 0xFFFFFFFC) } }
  | 0x2C => s.chSet n fun x => { x with post := { x.post with haddr := setHalf x.post.haddr true v } }
  | 0x80 => sc fun c => { c with ctrl := v &&& 0x801F1F00 }
  | 0x84 => sc fun c => { c with grey := c.grey && !bit v 7, collide := c.collide && !bit v 6, ovf := c.ovf && !bit v 5 }
  | 0x88 => if depBad v then { s with blk := { s.blk with scRej := true } } else sc fun c => { c with depA := v }
  | 0x8C => if depBad v then { s with blk := { s.blk with scRej := true } } else sc fun c => { c with depB := v }
  | _ => s

/-- A word of the CHAN block (Table 6-15). -/
def State.chanPeek (s : State) (o : Nat) : Word :=
  let st (b : Nat) (f : ChState → Bool) : Word := mapWord fun i => f s.chans[(finOf 256 (8 * (o - b) + i) : ChIx)].state
  if 0x4010 ≤ o ∧ o < 0x4030 then st 0x4010 (· == .check)
  else if 0x4030 ≤ o ∧ o < 0x4050 then st 0x4030 (· == .fenced)
  else if 0x4050 ≤ o ∧ o < 0x4070 then st 0x4050 (· != .idle)
  else match o with
  | 0x4000 => s.blk.save
  | 0x4004 => toW (putb s.blk.chBusy 1 + putb s.blk.chRej 0)
  | _ => 0

/-- A write of CHAN_SAVE (R206). -/
def State.wrChanSave (s : State) (v : Word) : State :=
  let w := v &&& 0xFFFC0000
  if 0xDFFC0000 < w.toNat then { s with blk := { s.blk with chRej := true } }
  else if s.chans.any (·.state != .idle) then { s with blk := { s.blk with chBusy := true } }
  else { s with blk := { s.blk with save := w } }

/-- A word of the SCOUT block (Table 9-14). -/
def State.scoutPeek (s : State) (o : Nat) : Word :=
  if 0x6010 ≤ o ∧ o < 0x6030 then mapWord fun i => s.chans[(finOf 256 (8 * (o - 0x6010) + i) : ChIx)].sc.outcome == .hit
  else if 0x6030 ≤ o ∧ o < 0x6050 then mapWord fun i => s.scoutEn (finOf 256 (8 * (o - 0x6030) + i))
  else if 0x6400 ≤ o ∧ o < 0x6800 then toW s.chans[(finOf 256 ((o - 0x6400) / 4) : ChIx)].sc.aborts
  else match o with
  | 0x6000 => toW (putb s.blk.scEn 0)
  | 0x6004 => toW (putb s.blk.scMz 3 + putb (s.dom 5 != .on) 2 + putb ((allFin 16).any fun c => s.isoSlow c) 1 + putb s.blk.scRej 0)
  | _ => 0

/-! ### NEEDLE and MEZZ (R519, R520) -/

/-- A domain's state as two bits. -/
def Dom.code : Dom → Nat
  | .on => 0 | .draining => 1 | .off => 2 | .rising => 2

/-- A word of the NEEDLE block (Table 18-6). A core takes the code of a LOAD_ROUTINE in one step, so HELD is never seen set. -/
def State.needlePeek (s : State) (o : Nat) : Word :=
  if 0x5100 ≤ o ∧ o < 0x5140 then
    let k : CoreIx := finOf 16 ((o - 0x5100) / 4)
    let c := s.cores[k]
    toW (putb c.run.isSome 31 + putb ((c.run.map (·.scout)).getD false) 30 + putb c.tr.inTrap 29 + putb c.fenced 28 +
      put (s.dom (1 + k.val / 4)).code 25 + put ((c.run.map (·.ch.val)).getD 0) 16)
  else if 0x5400 ≤ o ∧ o < 0x5C00 then
    let x := s.cores[(finOf 16 ((o - 0x5400) / 0x80) : CoreIx)].slots[(finOf 32 (o % 0x80 / 4) : Fin 32)]
    toW (putb x.valid 31 + putb x.timed 30 + x.entry.toNat % 65536)
  else 0

/-- A word of the MEZZ block (Table 18-7). -/
def State.mezzPeek (s : State) (o : Nat) : Word :=
  let m := s.mezz
  match o with
  | 0xD000 => toW (putb s.mzPresent 31 + putb m.fitted 30 + putb m.idErr 29 + put (s.dom 7).code 27 + putb m.ovf 1)
  | 0xD004 => m.id
  | 0xD008 => toW m.txn
  | 0xD00C => toW m.err
  | 0xD010 => toW m.tmo
  | _ => 0

/-! ### REFLEX (R368, R388) -/

/-- A word of a rule (Table 12-2). -/
def Rule.peek (x : Rule) (w : Nat) : Word :=
  match w with
  | 0 => toW (putb x.en 31 + putb x.lock 30 + putb x.holding 29 + put x.hold 27 + putb x.evq 25)
  | 1 => x.trig
  | 2 => x.thresh
  | 3 => x.qual
  | 4 => x.act
  | 5 => x.value
  | 6 => toW x.fires
  | 7 => x.threshHi
  | _ => 0

/-- What an agent captured at REFLEX_EVQ_POP: the high half and the TS (R110, R510). -/
def Reflex.capOf (x : Reflex) (a : Agent) : Word × Nat := ((x.caps.find? fun c => c.1 = a).map (·.2)).getD (0, 0)
def Reflex.setCap (x : Reflex) (a : Agent) (c : Word × Nat) : Reflex := { x with caps := (a, c) :: x.caps.filter fun y => y.1 ≠ a }

/-- A word of the REFLEX block (Table 12-12). -/
def State.reflexPeek (s : State) (a : Agent) (o : Nat) : Word :=
  let x := s.rx
  if 0x7040 ≤ o ∧ o < 0x7080 then mapWord fun i => s.rules[(finOf 512 (8 * (o - 0x7040) + i) : RuleIx)].holding
  else match o with
  | 0x7004 => toW (putb x.slow 5 + putb x.lockRej 4 + putb x.wrBusy 3 + putb x.ovf 2 + putb x.armed 1 + putb x.cfgRej 0)
  | 0x7008 => toW (putb x.rstRej 8 + putb x.disc 5 + putb x.estop 4 + putb x.raw.2 3 + putb x.raw.1 2 + putb x.closed.2 1 + putb x.closed.1 0)
  | 0x700C => toW (putb x.cfgLock 31 + put x.deMask.toNat 24 + put x.discMs 12 + x.filt)
  | 0x7010 => toW (putb x.closeRej 24 + put s.heldOpen.toNat 8 + put x.aux.toNat 4 + x.coil.toNat)
  | 0x7014 => toW x.evq.length
  | 0x7018 => toW x.lost
  | 0x7020 => toW (((x.evq.head?).map RxRec.word).getD 0)
  | 0x7024 => (x.capOf a).1
  | 0x7028 => lo32 (x.capOf a).2
  | 0x702C => hi32 (x.capOf a).2
  | 0x7030 => toW x.path
  | _ => 0

/-- A pop of the Reflex event queue by an agent; on a low-half read the high half is captured (R110, R384, R392). -/
def State.rxPop (s : State) (a : Agent) (low : Bool) : BitVec 64 × State :=
  match s.rx.evq with
  | [] => (0, if low then { s with rx := s.rx.setCap a (0, (s.rx.capOf a).2) } else s)
  | r :: rs =>
    let w := BitVec.ofNat 64 r.word
    (w, { s with rx := ({ s.rx with evq := rs } : Reflex).setCap a (if low then w.extractLsb' 32 32 else (s.rx.capOf a).1, r.ts) })

/-- A write in the REFLEX block. -/
def State.reflexWrite (s : State) (o : Nat) (v : Word) : State :=
  match o with
  | 0x7004 =>
    let x := s.rx
    { s with rx := { x with lockRej := x.lockRej && !bit v 4, wrBusy := x.wrBusy && !bit v 3, ovf := x.ovf && !bit v 2, cfgRej := x.cfgRej && !bit v 0 } }
  | 0x7008 => s.wrEstop v
  | 0x700C => s.wrEstopCfg v
  | 0x7010 => s.wrDe v
  | 0x7014 => if bit v 31 then { s with rx := { s.rx with evq := [] } } else s
  | _ => s

/-! ### PROP (R436) -/

/-- The unit itself is fenced (Table 14-9). -/
def State.unitFenced (s : State) (u : UnitId) : Bool :=
  match u.utype with
  | 0x05 => s.combFenced (finOf 16 u.index)
  | 0x08 => s.chanFenced (finOf 256 u.index)
  | 0x09 => s.fencedObj (.core (finOf 16 u.index))
  | 0x0A => s.fencedObj (.mc (finOf 64 u.index))
  | _ => false

/-- PROP_USTAT of a unit. -/
def State.ustat (s : State) (u : UnitId) : Word :=
  if !unitOk u then 0
  else
    let x := s.punit u
    let slots := (List.range 4).foldl (fun n k => n + putb (x.slots.any (·.1 == k)) k) 0
    toW (2 ^ 31 + putb (decide (1 ≤ x.cls)) 30 + putb (s.unitFenced u) 29 + put x.cls 24 +
      put (slots + putb (s.prop.open4.any (·.2 == u)) 4) 16 + s.recovOf u)

/-- A word of the PROP block (Table 14-9). -/
def State.propPeek (s : State) (o : Nat) : Word :=
  let p := s.prop
  if 0x8100 ≤ o ∧ o < 0x8500 then
    let c := (o - 0x8100) / 4
    let x := s.classOf c
    toW (putb (fixedCause c) 9 + putb x.2 8 + x.1)
  else match o with
  | 0x8000 => s.propStat
  | 0x8004 => toW p.head
  | 0x8008 => toW p.unack
  | 0x800C => toW p.lost
  | 0x8010 | 0x8014 | 0x8018 | 0x801C => toW p.quiet[(finOf 4 ((o - 0x8010) / 4))]
  | 0x8020 => toW (put p.irqMin 8 + p.degPrio)
  | 0x8024 => mapWord fun i => decide (i < 16) && s.combFenced (finOf 16 i)
  | 0x8028 => mapWord fun i => decide (i < 16) && s.fencedObj (.core (finOf 16 i))
  | 0x802C | 0x8030 => mapWord fun i => s.fencedObj (.mc (finOf 64 (8 * (o - 0x802C) + i)))
  | 0x8040 => p.usel
  | 0x8044 => s.ustat ⟨fld p.usel 23 16, fld p.usel 15 0⟩
  | 0x8060 => p.inj
  | 0x8064 => p.injDetail
  | 0x8068 => toW (putb p.tokenErr 10 + putb p.strap 9 + putb p.unlocked 8 + putb p.clsEn 3 + p.cls)
  | 0x806C => p.tok
  | _ => 0

/-- A write in the PROP block. -/
def State.propWrite (s : State) (o : Nat) (v : Word) : State :=
  match o with
  | 0x8000 => { s with prop := { s.prop with ovf := s.prop.ovf && !bit v 5, cfgRej := s.prop.cfgRej && !bit v 0 } }
  | 0x8040 => { s with prop := { s.prop with usel := v &&& 0x00FFFFFF } }
  | 0x8060 => { s with prop := { s.prop with inj := v } }
  | 0x8064 => { s with prop := { s.prop with injDetail := v &&& 0xFFFF } }
  | 0x8068 => s.wrInjCtrl v
  | 0x806C => if v.toNat % 128 ≠ 0 then { s with prop := { s.prop with cfgRej := true } } else { s with prop := { s.prop with tok := v } }
  | _ => s

/-! ### FAN, PSU and GAUGE (R444, R459, R464, R475) -/

/-- The thermal share of the power available, 0.1 W, from sensor 7 in 0.125 °C (R444). -/
def pTherm (t7 : Int) : Int := clampI 1600 2600 (2600 - (25 * (t7 - 360) + 1) / 2)

/-- p_mains in 0.1 W (R444). -/
def State.pMains (s : State) : Int := min (pTherm s.fan.temp[(7 : Fin 24)]) (10 * (s.psu.pHold : Int))

/-- T_SOFT in force: Gauge sets it 5 °C below the image's value, never below 80 °C for that (R464). -/
def Fan.soft (f : Fan) : Nat := if f.tLow then Nat.min f.tSoft (Nat.max 80 (f.tSoft - 5)) else f.tSoft

/-- A word of the FAN block (Table 15-8). -/
def State.fanPeek (s : State) (o : Nat) : Word :=
  let f := s.fan
  if 0x9100 ≤ o ∧ o < 0x9160 then toWi f.temp[(finOf 24 ((o - 0x9100) / 4))] &&& 0xFFFF
  else match o with
  | 0x9000 => toW (put f.gTh 24 + put f.gThC 16 + put f.drainLim 8 + putb f.autoGate 4 + f.floor)
  | 0x9004 => toW (put f.combHot 8 + f.soft)
  | 0x9008 => toW (putb f.overload 9 + putb f.overdraw 8 + putb f.fanFail 7 + putb f.thermSoft 6 + putb f.domRej 5 + putb f.cfgRej 4 + f.level)
  | 0x900C => toWi s.pMains
  | 0x9010 => toWi f.pCap &&& 0xFFFF
  | 0x9014 => toWi f.eGrant
  | 0x9018 => toW f.eUsed
  | 0x9020 => toW (put f.curve.1 8 + f.curve.2)
  | 0x9024 => toW (put f.rpm 16 + put f.duty 8 + putb Config.variantF0 0)
  | 0x9030 => f.req
  | 0x9034 => mapWord fun i => s.dom i == .off || s.dom i == .rising
  | 0x9038 => mapWord fun i => s.dom i == .draining
  | _ => 0

/-- A word of the PSU block (Table 15-9). -/
def State.psuPeek (s : State) (o : Nat) : Word :=
  let p := s.psu
  match o with
  | 0xC000 => toW (put p.lastOff 8 + putb p.holdupLow 3 + putb p.pfw 2 + putb p.mainsOk 1 + putb p.cfgRej 0)
  | 0xC004 => p.vin.zeroExtend 32
  | 0xC008 => p.vbus.zeroExtend 32
  | 0xC00C => p.pout.zeroExtend 32
  | 0xC010 => toW p.vPfw
  | 0xC014 => toW p.margin
  | 0xC018 => toW p.cap
  | 0xC01C => toW p.esr
  | _ => 0

/-- GAUGE_NCL k.DERATE, % (R464). -/
def derate (volt : Nat) : Nat := 6 * (volt - 85)

/-- A word of the GAUGE block (Table 16-7). -/
def State.gaugePeek (s : State) (o : Nat) : Word :=
  let g := s.gauge
  if 0xA100 ≤ o ∧ o < 0xA140 then toW g.iso[(finOf 16 ((o - 0xA100) / 4))]
  else if 0xA140 ≤ o ∧ o < 0xA180 then toWi g.zen[(finOf 16 ((o - 0xA140) / 4))] &&& 0xFFFF
  else if 0xA180 ≤ o ∧ o < 0xA1C0 then toW g.calInt[(finOf 16 ((o - 0xA180) / 4))]
  else if 0xA1C0 ≤ o ∧ o < 0xA1D0 then
    let k : Fin 4 := finOf 4 ((o - 0xA1C0) / 4)
    toW (put g.volt[k] 24 + put (derate g.volt[k]) 16 + g.slack[k])
  else if 0xA200 ≤ o ∧ o < 0xA400 then
    let p : Fin 128 := finOf 128 ((o - 0xA200) / 4)
    toW (put g.fact[p] 16 + g.ron[p])
  else match o with
  | 0xA000 => toW (put g.capInt 24 + put g.calBase 12 + putb g.capEn 0)
  | 0xA004 => toW (put g.copyValid 4 + putb (g.capRun != .idle) 3 + putb g.measFail 2 + putb g.cfgRej 0)
  | 0xA008 => toW g.lseq
  | 0xA00C => toW g.pon
  | 0xA010 => toW (g.eqh / 3932160)
  | 0xA014 => toW (put g.life.1 16 + g.life.2)
  | 0xA018 => toW g.lifeWarn
  | 0xA01C => toW (putb g.tcxo.2 16 + (g.tcxo.1 % 65536).toNat)
  | 0xA020 => toW g.flash.1
  | 0xA024 => toW g.flash.2
  | 0xA028 => toW (put g.fanRatio 20 + g.fanMin / 60 % 2 ^ 20)
  | _ => 0

/-! ### Ledger entries (R469, R470) -/

/-- An entry of the present state. -/
def State.mkEntry (s : State) (kind seq : Nat) : LEntry :=
  let g := s.gauge
  { seq := seq, kind := kind, pon := g.pon, boots := g.boots, eqh := g.eqh / 3932160, capEsr := (s.psu.cap, s.psu.esr), iso := g.iso
    zen := g.zen, ncl := Vector.ofFn fun k => (g.volt[k], derate g.volt[k], g.slack[k]), tcxo := g.tcxo, flash := g.flash
    fan := (g.fanMin / 60, g.fanRatio)
    ron := (allFin 128).map fun p => if g.fact[p] = 0 then 0 else Nat.min 255 (g.ron[p] * 64 / g.fact[p])
    life := g.life, ts := s.now }

/-- A start-up or measurement entry is folded into the next hourly one: twelve have been written in 1,440 minutes (R470). -/
def Gauge.folded (g : Gauge) (kind : Nat) : Bool :=
  (kind == 2 || kind == 3) && decide (12 ≤ (g.recent.filter fun m => decide (g.pon < m + 1440)).length)

/-- An entry becomes due: it is committed after the one under way, and is folded into one already waiting behind that (R470, R474).
No program starts after B+0 (R440). -/
def State.ledgerDue (s : State) (kind : Nat) : State :=
  let g := s.gauge
  if s.psu.bind ≠ .none ∨ !s.glb.gauge ∨ g.folded kind then s
  else
    let recent := if kind = 2 ∨ kind = 3 then g.pon :: g.recent.filter fun m => decide (g.pon < m + 1440) else g.recent
    let q := match g.queue with
      | [] => [s.mkEntry kind (g.lseq + 1)]
      | e :: l =>
        let k := if kind = 1 ∨ l.any (·.kind == 1) then 1 else kind
        [e, s.mkEntry k (g.lseq + 2)]
    { s with gauge := { g with recent := recent, queue := q } }

/-- A cause of Table 16-2 arises; the first time it does, a measurement entry is due (R470). -/
def State.gaugeArise (s : State) (utype index cause detail : Nat) (data : Word) : State :=
  let s := s.report utype index cause detail data
  if s.gauge.arisen.contains (cause, index) then s
  else ({ s with gauge := { s.gauge with arisen := (cause, index) :: s.gauge.arisen } } : State).ledgerDue 2

/-- GAUGE_LIFE stands below its warning level: LIFE_LOW is raised, once while it stays below (R473). -/
def State.lifeCheck (s : State) : State :=
  let low := decide (s.gauge.life.1 < s.gauge.lifeWarn)
  let was := s.gauge.lifeLow
  let s := { s with gauge := { s.gauge with lifeLow := low } }
  if low && !was then s.gaugeArise 0x1B 0 0xC6 0 (toW s.gauge.life.1) else s

/-- Which policy registers a writer reaches (Table 17-9). -/
inductive Policy where
  | all
  | fault
  | fanGauge
  | fan
  deriving DecidableEq, Repr

/-- The policy writer reaches the register at an offset. -/
def Policy.ok (p : Policy) (o : Nat) : Bool :=
  let pr := (decide (0x8100 ≤ o) && decide (o < 0x8500)) || (decide (0x8010 ≤ o) && decide (o < 0x8020))
  let fan := o == 0x9000 || o == 0x9004 || o == 0x9020 || o == 0xC014
  let ga := o == 0xA000 || o == 0xA018
  match p with
  | .all => pr || o == 0x8020 || fan || ga
  | .fault => pr
  | .fanGauge => fan || ga
  | .fan => fan

/-- A write of a policy register by the image or the Supervisor firmware, within its stated range (R459, R475, R492). -/
def State.policyWrite (s : State) (o : Nat) (v : Word) : State :=
  let fanRej : State := { s with fan := { s.fan with cfgRej := true } }
  let gaugeRej : State := { s with gauge := { s.gauge with cfgRej := true } }
  if 0x8100 ≤ o ∧ o < 0x8500 then s.setCmap ((o - 0x8100) / 4) v
  else match o with
  | 0x8010 | 0x8014 | 0x8018 | 0x801C =>
    if 1 ≤ v.toNat ∧ v.toNat ≤ 3600000 then { s with prop := { s.prop with quiet := s.prop.quiet.set (finOf 4 ((o - 0x8010) / 4)) v.toNat } }
    else { s with prop := { s.prop with cfgRej := true } }
  | 0x8020 => { s with prop := { s.prop with irqMin := fld v 10 8, degPrio := fld v 2 0 } }
  | 0x9000 =>
    if fld v 31 24 < 5 ∨ 100 < fld v 31 24 ∨ fld v 15 8 < 10 ∨ 200 < fld v 15 8 then fanRej
    else { s with fan := { s.fan with gTh := fld v 31 24, gThC := fld v 23 16, drainLim := fld v 15 8, autoGate := bit v 4, floor := fld v 2 0 } }
  | 0x9004 => if 100 < fld v 7 0 then fanRej else { s with fan := { s.fan with combHot := fld v 15 8, tSoft := fld v 7 0 } }
  | 0x9020 => if fld v 15 8 ≤ fld v 7 0 then fanRej else { s with fan := { s.fan with curve := (fld v 15 8, fld v 7 0) } }
  | 0xC014 => if 40 < fld v 7 0 then { s with psu := { s.psu with cfgRej := true } } else { s with psu := { s.psu with margin := fld v 7 0 } }
  | 0xA000 =>
    if fld v 31 24 < 1 ∨ 168 < fld v 31 24 ∨ fld v 23 12 < 1 then gaugeRej
    else ({ s with gauge := { s.gauge with capInt := fld v 31 24, calBase := fld v 23 12, capEn := bit v 0 } } : State).each (allFin 16)
      fun c s => s.calInterval c
  | 0xA018 => ({ s with gauge := { s.gauge with lifeWarn := fld v 15 0 } } : State).lifeCheck
  | _ => s

/-- The writes of one run of a policy hook, if the firmware runs: registers its hook may not write are left alone (R493). -/
def State.hook (s : State) (p : Policy) (h : HookWrites) : State :=
  if s.firmware then s.each h fun (a, v) s => if p.ok a.toNat && a.toNat % 4 == 0 then s.policyWrite a.toNat v else s else s

/-! ### CASTON (R506) -/

/-- The staging slot: the one that does not run, A without an image (R495). -/
def Caston.stageSlot (c : Caston) : Bool := c.run == some false

/-- CASTON_STAT.OWNER. -/
def Sess.code : Sess → Nat
  | .none => 0 | .host => 1 | .usb => 2

/-- A word of the CASTON block (Table 17-16). -/
def State.castonPeek (s : State) (o : Nat) : Word :=
  let c := s.cast
  match o with
  | 0xB000 => toW (putb c.keyFull 11 + putb c.lockPend 10 + putb c.rolePend 9 + putb c.fwHalt 8 + put c.owner.code 6 + put c.flags.toNat 3 +
      putb c.fallback 2 + putb c.noImage 1)
  | 0xB004 => toW (put (slotNo c.next 3) 16 + put (slotNo c.run 3) 8 + putb c.stageSlot 0)
  | 0xB008 => toW ((c.recA.map (·.seq)).getD 0)
  | 0xB00C => toW ((c.recB.map (·.seq)).getD 0)
  | 0xB010 => toW (put c.causeB 8 + c.causeA)
  | 0xB014 => toW c.boot
  | 0xB018 => toW c.staged.length
  | 0xB01C => toW ((List.range 4).foldl (fun n k => n + putb c.keys[(finOf 4 k)].isSome k) 0)
  | _ => 0

/-! ### All of BAR0 outside the Comb region (R508, R509) -/

/-- What an offset below the Comb region names: a block's register, or an element of an array and an offset in it. -/
inductive BlkReg where
  | blk (o : Nat)
  | page (q : QpIx) (o : Nat)
  | mc (m : McIx) (o : Nat)
  | chan (n : ChIx) (o : Nat)
  | rule (r : RuleIx) (w : Nat)
  | none
  deriving DecidableEq, Repr

/-- The register at a BAR0 offset (Table 18-1). -/
def blkRegAt (a : Nat) : BlkReg :=
  if a < 0xE000 then .blk a
  else if 0x100000 ≤ a ∧ a < 0x108000 then .page (finOf 512 ((a - 0x100000) / 0x40)) (a % 0x40)
  else if 0x200000 ≤ a ∧ a < 0x201000 then .mc (finOf 64 ((a - 0x200000) / 0x40)) (a % 0x40)
  else if 0x300000 ≤ a ∧ a < 0x310000 then .chan (finOf 256 ((a - 0x300000) / 0x100)) (a % 0x100)
  else if 0x400000 ≤ a ∧ a < 0x404000 then .rule (finOf 512 ((a - 0x400000) / 0x20)) (a % 0x20 / 4)
  else .none

/-- An aligned word outside the Comb region, without effects. -/
def State.blockPeek (s : State) (ag : Agent) (a : Nat) : Word :=
  match blkRegAt a with
  | .blk o =>
    match o / 0x1000 with
    | 0x0 => s.glbPeek o
    | 0x1 => s.tickPeek ag o
    | 0x2 => s.hostqPeek o
    | 0x3 => s.movePeek o
    | 0x4 => s.chanPeek o
    | 0x5 => s.needlePeek o
    | 0x6 => s.scoutPeek o
    | 0x7 => s.reflexPeek ag o
    | 0x8 => s.propPeek o
    | 0x9 => s.fanPeek o
    | 0xA => s.gaugePeek o
    | 0xB => s.castonPeek o
    | 0xC => s.psuPeek o
    | 0xD => s.mezzPeek o
    | _ => 0
  | .page q o => s.pagePeek q o
  | .mc m o => s.mcs[m].peek o
  | .chan n o => s.chans[n].peek (s.chWait n) o
  | .rule r w => s.rules[r].peek w
  | .none => 0

/-- What an aligned read outside the Comb region changes (R9, R51, R516), the pop of the Reflex event queue apart. -/
def State.blockReadEffect (s : State) (ag : Agent) (a : Nat) : State :=
  match blkRegAt a with
  | .blk o =>
    if 0x1140 ≤ o ∧ o < 0x1180 then { s with tick := { s.tick with budPeak := s.tick.budPeak.set (finOf 16 ((o - 0x1140) / 4)) 0 } }
    else if 0x6400 ≤ o ∧ o < 0x6800 then s.modChan (finOf 256 ((o - 0x6400) / 4)) fun x => { x with sc := { x.sc with aborts := 0 } }
    else match o with
    | 0x24 | 0x28 | 0x2C => { s with glb := s.glb.clearLost ((o - 0x24) / 4) }
    | 0x1010 =>
      let t := s.tick
      { s with tick := if ag = .supervisor then { t with supSnap := (hi32 t.now, t.supSnap.2) } else { t with hostSnap := (hi32 t.now, t.hostSnap.2) } }
    | 0x1018 =>
      let t := s.tick
      { s with tick := if ag = .supervisor then { t with supSnap := (t.supSnap.1, hi32 t.edge) } else { t with hostSnap := (t.hostSnap.1, hi32 t.edge) } }
    | 0x1034 => { s with tick := { s.tick with ovrCnt := 0 } }
    | 0x7018 => { s with rx := { s.rx with lost := 0 } }
    | 0x800C => { s with prop := { s.prop with lost := 0 } }
    | 0xD008 => { s with mezz := { s.mezz with txn := 0 } }
    | 0xD00C => { s with mezz := { s.mezz with err := 0 } }
    | 0xD010 => { s with mezz := { s.mezz with tmo := 0 } }
    | _ => s
  | .mc m 0x28 => s.modMc m fun x => { x with sig := 0 }
  | .chan n o =>
    match o with
    | 0x34 => s.modChan n fun x => { x with ovrCnt := 0 }
    | 0x38 => s.modChan n fun x => { x with deferCnt := 0 }
    | 0x90 => s.modChan n fun x => { x with sc := { x.sc with hits := 0 } }
    | 0x94 => s.modChan n fun x => { x with sc := { x.sc with misses := 0 } }
    | _ => s
  | .rule r 6 => s.modRule r fun x => { x with fires := 0 }
  | _ => s

/-- A write in the TICK block. -/
def State.tickWrite (s : State) (o : Nat) (v : Word) : State :=
  match o with
  | 0x1000 => s.wrTickCtrl v
  | 0x1004 => s.wrTickPeriod v
  | 0x100C =>
    let t := s.tick
    { s with tick := { t with ovrOvf := t.ovrOvf && !bit v 10, link := { t.link with calErr := t.link.calErr && !bit v 8, markerLost := t.link.markerLost && !bit v 6 } } }
  | _ => s

/-- An aligned 32-bit write outside the Comb region, but for GLB_RST and FAN_DOM_REQ (R513, R515). -/
def State.blockWrite (s : State) (a : Nat) (v : Word) : State :=
  match blkRegAt a with
  | .blk o =>
    match o / 0x1000 with
    | 0x0 =>
      if o = 0x10 then { s with glb := { s.glb with tickRej := s.glb.tickRej && !bit v 0 } }
      else if o = 0x20 then { s with glb := { s.glb with xovr := s.glb.xovr &&& ~~~v } } else s
    | 0x1 => s.tickWrite o v
    | 0x2 => s.hostqWrite o v
    | 0x3 => if o = 0x3004 then { s with blk := { s.blk with mvBusy := s.blk.mvBusy && !bit v 1, mvRej := s.blk.mvRej && !bit v 0 } } else s
    | 0x4 =>
      if o = 0x4000 then s.wrChanSave v
      else if o = 0x4004 then { s with blk := { s.blk with chBusy := s.blk.chBusy && !bit v 1, chRej := s.blk.chRej && !bit v 0 } } else s
    | 0x6 =>
      if o = 0x6000 then { s with blk := { s.blk with scEn := bit v 0 } }
      else if o = 0x6004 then { s with blk := { s.blk with scMz := s.blk.scMz && !bit v 3, scRej := s.blk.scRej && !bit v 0 } } else s
    | 0x7 => s.reflexWrite o v
    | 0x8 => s.propWrite o v
    | 0x9 => if o = 0x9008 then { s with fan := { s.fan with domRej := s.fan.domRej && !bit v 5, cfgRej := s.fan.cfgRej && !bit v 4 } } else s
    | 0xA => if o = 0xA004 then { s with gauge := { s.gauge with measFail := s.gauge.measFail && !bit v 2, cfgRej := s.gauge.cfgRej && !bit v 0 } } else s
    | 0xC => if o = 0xC000 then { s with psu := { s.psu with cfgRej := s.psu.cfgRej && !bit v 0 } } else s
    | 0xD => if o = 0xD000 then { s with mezz := { s.mezz with ovf := s.mezz.ovf && !bit v 1 } } else s
    | _ => s
  | .page q o => s.pageWrite q o v
  | .mc m o => s.mcWrite m o v
  | .chan n o => s.chWrite n o v
  | .rule r w => s.wrRule r w v
  | .none => s

end Sys2Proof.Machine
end

