-- ==== Sys2Proof/Machine/Image.lean ====
section
/-! DEFINITION. The image (R476 to R483): its layout, its records, its verification; the commit journal and the image commands
(R351, R360, R484 to R498). -/

namespace Sys2Proof.Machine

/-! ### Layout (R476 to R478) -/

/-- An entry of the section table (R477). -/
structure Section where
  /-- TYPE; R477, 17 -/
  type : Nat
  /-- bytes 2 and 3, zero; R477, 17 -/
  zero : Nat
  /-- OFFSET; R477, 17 -/
  ofs : Nat
  /-- LEN; R477, 17 -/
  len : Nat
  /-- CRC; R477, 17 -/
  crc : Nat
  deriving DecidableEq, Repr

/-- The section table of an image. -/
def imgTable (b : List Byte) : List Section :=
  (List.range (leAt b 7 1)).map fun i =>
    let e := 256 + 16 * i
    ⟨leAt b e 2, leAt b (e + 2) 2, leAt b (e + 4) 4, leAt b (e + 8) 4, leAt b (e + 12) 4⟩

/-- The bytes of the section of a type; empty where the image has none. -/
def imgSec (b : List Byte) (type : Nat) : List Byte :=
  match (imgTable b).find? (·.type == type) with
  | some e => slice b e.ofs e.len
  | none => []

/-- The image has a section of a type. -/
def imgHas (b : List Byte) (type : Nat) : Bool := (imgTable b).any (·.type == type)

/-- The records of a section: OFFSET and VALUE (R479). -/
def secRecords (b : List Byte) : List (Nat × Word) :=
  (List.range (b.length / 8)).map fun i => (leAt b (8 * i) 4, toW (leAt b (8 * i + 4) 4))

/-- The records of the section of a type. -/
def imgRecords (b : List Byte) (type : Nat) : List (Nat × Word) := secRecords (imgSec b type)

/-- A block of the NEEDLE section (R480). -/
inductive NBlock where
  | code (mask iofs : Nat) (bytes : List Byte)
  | slot (mask slot timed entry : Nat)
  deriving DecidableEq, Repr

/-- The limits of LOAD_ROUTINE (R356, R480). -/
def NBlock.ok : NBlock → Bool
  | .code m i b => m != 0 && i % 4 == 0 && b.length % 4 == 0 && decide (4 ≤ b.length) && decide (i + b.length ≤ 65536)
  | .slot m s t e => m != 0 && decide (s < 32) && decide (t < 2) && e % 4 == 0 && decide (e ≤ 0xFFFC)

/-- The blocks of the NEEDLE section; none where a block is malformed (R480). -/
def nBlocks : Nat → List Byte → Option (List NBlock)
  | 0, b => if b.isEmpty then some [] else none
  | n + 1, b =>
    if b.isEmpty then some []
    else if b.length < 16 ∨ leAt b 1 1 ≠ 0 then none
    else
      let rest := b.drop 16
      match leAt b 0 1 with
      | 1 =>
        let len := leAt b 8 4
        if rest.length < len then none
        else (nBlocks n (rest.drop len)).map fun l => .code (leAt b 2 2) (leAt b 4 4) (rest.take len) :: l
      | 2 => (nBlocks n rest).map fun l => .slot (leAt b 2 2) (leAt b 4 1) (leAt b 5 1) (leAt b 8 4) :: l
      | _ => none

/-- The NEEDLE blocks of an image. -/
def imgBlocks (b : List Byte) : List NBlock := let x := imgSec b 3; (nBlocks x.length x).getD []

/-- The byte of a pair in the graft map; 0 where the image has no GRAFT section (R480). -/
def imgGraft (b : List Byte) (j : PairIx) : Word := toW (leAt (imgSec b 5) j.val 1)

/-! ### Records (R478, R479) -/

/-- OFFSET of a binding. -/
def bindOfs : Nat := 0xFFFFFFF0

/-- What a record names: its register and whether it is marked locked; none where the section may not set it (Table 17-2). -/
def recordReg (type ofs : Nat) : Option (Nat × Bool) :=
  let lock := ofs % 2 == 1
  let o := ofs - ofs % 2
  if ofs / 2 % 2 = 1 then none
  else match type with
  | 4 =>
    match (if 0x1000000 ≤ o then combRegAt (o - 0x1000000) else .none) with
    | .port _ r => if r = 0x74 ∨ (!lock ∧ [0x00, 0x04, 0x08, 0x0C, 0x6C].contains r) then some (o, lock) else none
    | _ => none
  | 6 =>
    match blkRegAt o with
    | .rule _ w => if w ≠ 6 ∧ (!lock ∨ w = 0) then some (o, lock) else none
    | .blk 0x700C => some (o, lock)
    | _ => none
  | 7 =>
    if lock then none
    else if o = bindOfs then some (o, false)
    else match blkRegAt o with
    | .chan _ r => if (0x40 ≤ r ∧ r < 0x80) ∨ [0x04, 0x18, 0x1C, 0x20, 0x28, 0x2C, 0x80, 0x88, 0x8C].contains r then some (o, false) else none
    | .mc _ r => if [0x00, 0x10, 0x14, 0x18, 0x1C].contains r then some (o, false) else none
    | .blk r => if r = 0x4000 ∨ r = 0x6000 then some (o, false) else none
    | _ => none
  | 8 => if !lock ∧ (o = 0x1000 ∨ o = 0x1004) then some (o, false) else none
  | 9 => if !lock ∧ Policy.all.ok o ∧ o % 4 = 0 then some (o, false) else none
  | _ => none

/-- The binding that a record's VALUE holds, and its channel (R479). -/
def recordBind (v : Word) : ChIx × Bind :=
  (finOf 256 (fld v 31 24),
   if bit v 0 then
     { bound := true, mc := if bit v 2 then some (finOf 64 (fld v 21 16)) else none, core := finOf 16 (fld v 11 8), anyCore := bit v 1, prio := fld v 6 4 }
   else {})

/-- A binding is accepted as BIND_CHANNEL accepts it: the move channel is not bound elsewhere, and nothing is named without BIND (R168, R355). -/
def State.bindOk (s : State) (v : Word) : Bool :=
  let (n, b) := recordBind v
  (bit v 0 || (v &&& 0x003F0F76) == 0) &&
    match b.mc with
    | some m => s.mcs[m].bound.isNone || s.mcs[m].bound == some n
    | none => true

/-- TICK_CTRL as Cast-on writes it, ROLE included; a reserved ROLE is refused (Table 2-7, R479). -/
def State.castTickCtrl (s : State) (v : Word) : State :=
  match fld v 1 0 with
  | 0 => ({ s with tick := { s.tick with role := .standalone } } : State).wrTickCtrl v
  | 1 => ({ s with tick := { s.tick with role := .master } } : State).wrTickCtrl v
  | 2 => ({ s with tick := { s.tick with role := .follower } } : State).wrTickCtrl v
  | _ => { s with glb := { s.glb with tickRej := true } }

/-- Cast-on writes a record (R479): as a host write, image fields included, then the lock it marks. What is locked already stays (R503). -/
def State.writeRecord (s : State) (type : Nat) (ofs : Nat) (v : Word) : State :=
  match recordReg type ofs with
  | none => s
  | some (o, lock) =>
    if type = 4 then
      match combRegAt (o - 0x1000000) with
      | .port p 0x74 =>
        if s.ports[p].safeLock then s else (s.portWrite none p 0x74 v).modPort p fun x => { x with safeLock := lock }
      | .port p r => s.portWrite none p r v
      | _ => s
    else if type = 9 then s.policyWrite o v
    else match blkRegAt o with
    | .rule r w => if s.rules[r].lock then s else (s.wrRule r w v).modRule r fun x => { x with lock := lock }
    | .blk 0x700C => if s.rx.cfgLock then s else let s := s.wrEstopCfg v; { s with rx := { s.rx with cfgLock := lock } }
    | .blk 0x1000 => s.castTickCtrl v
    | _ => if o = bindOfs then (if s.bindOk v then s.setBind (recordBind v).1 (recordBind v).2 else s) else s.blockWrite o v

/-- The records of a section that concern what `f` picks, in order. -/
def State.writeRecords (s : State) (b : List Byte) (type : Nat) (f : Nat → Bool) : State :=
  s.each ((imgRecords b type).filter fun r => f r.1) fun r s => s.writeRecord type r.1 r.2

/-- A rejection flag of Table 18-2, of a lock or of a state stands. -/
def State.anyRej (s : State) : Bool :=
  s.rejSum != 0 || s.rx.wrBusy || s.rx.lockRej || s.blk.chBusy || s.blk.mvBusy || s.ports.any fun x => x.st.cfgRej

/-- CASTON_BOOT as a GLB_READY bit is set in bring-up: ms since the restart, and free after a power-up, before which no time ran, and beyond
the field (Table 17-16; log entry 9). -/
def State.noteBoot (s : State) : State :=
  let ms := (s.now - s.cast.bootAt) / 4000000
  if s.cast.bootAt ≠ 0 ∧ ms < 65536 then { s with cast := { s.cast with boot := ms } }
  else let (w, s) := s.draw; { s with cast := { s.cast with boot := w.toNat % 65536 } }

/-! ### Verification (R482, R483) -/

/-- The record is accepted on the state that the records before it have made; the state after it, or none. -/
def State.tryRecord (s : State) (type : Nat) (r : Nat × Word) : Option State :=
  match recordReg type r.1 with
  | none => none
  | some (o, lock) =>
    if o = bindOfs ∧ !s.bindOk r.2 then none
    else if type = 6 ∧ o % 0x20 = 0 ∧ lock ∧ !bit r.2 31 then none
    else
      let s := s.writeRecord type r.1 r.2
      if s.anyRej then none else some s

/-- Every record of a section is accepted, from a module at cold reset whose Combs are ready. -/
def recordsOk (type : Nat) (rs : List (Nat × Word)) : Bool :=
  (rs.foldl (fun (o : Option State) r => o.bind fun s => s.tryRecord type r)
    (some { State.reset with glb := { State.reset.glb with comb := 0xFFFF } })).isSome

/-- Check CONTENT (Table 17-3). -/
def contentOk (b : List Byte) : Bool :=
  ([4, 6, 7, 8, 9].all fun t => (imgSec b t).length % 8 == 0 && recordsOk t (imgRecords b t)) &&
    (!imgHas b 5 || ((imgSec b 5).length == 64 &&
      (allFin 64).all fun j => decide (fld (imgGraft b j) 6 4 < 6) && decide (fld (imgGraft b j) 2 0 ≤ 1))) &&
    (let x := imgSec b 3
     match nBlocks x.length x with
     | some l => l.all NBlock.ok
     | none => false) &&
    (!imgHas b 10 || (imgSec b 10).length == 64)

/-- Check FACTORY on a factory block (R481). -/
def factoryOk (f : List Byte) : Bool :=
  f.length == 512 && slice f 0 4 == ascii "SLVF" && slice f 4 16 == Config.serial.toList &&
    Config.ecdsaOk Config.factoryKey.toList (Config.sha256 (slice f 0 448)) (slice f 448 64)

/-- No two sections overlap. -/
def secsApart : List Section → Bool
  | [] => true
  | e :: l => l.all (fun x => decide (e.ofs + e.len ≤ x.ofs) || decide (x.ofs + x.len ≤ e.ofs)) && secsApart l

/-- The digest that a commit record holds (Table 17-5). -/
def imgDigest (b : List Byte) (len : Nat) : List Byte := (Config.sha256 (b.take (len - 64))).toList

/-- The checks of Table 17-3 up to CONTENT, in order, each with its code; `len` is the length committed or recorded. -/
def imgChecks (keys : Vector (Option (List Byte)) 4) (b : List Byte) (len : Nat) : List (Nat × Bool) :=
  let total := leAt b 8 4
  let tab := imgTable b
  let count (t : Nat) : Nat := (tab.filter (·.type == t)).length
  let pub := slice b 96 64
  [ (0x01, slice b 0 4 == ascii "SLVI" && leAt b 4 2 == 1 && decide (2 ≤ leAt b 7 1) && decide (leAt b 7 1 ≤ 32) && total == len &&
      total % 4096 == 0 && decide (8192 ≤ total) && decide (total ≤ slotSize) && decide (leAt b 18 2 < 8) && slice b 20 12 == zeros 12 &&
      slice b 160 96 == zeros 96),
    (0x02, (tab.all fun e => e.zero == 0 && e.ofs % 16 == 0 && decide (256 + 16 * tab.length ≤ e.ofs) && decide (1 ≤ e.len) &&
      decide (e.ofs + e.len ≤ total - 64)) && secsApart tab),
    (0x03, if h : leAt b 6 1 < 4 then keys[leAt b 6 1] == some (Config.sha256 pub).toList else false),
    (0x04, Config.ecdsaOk pub (Config.sha256 (b.take (total - 64))) (slice b (total - 64) 64)),
    (0x05, tab.all fun e => (crc32c (slice b e.ofs e.len)).toNat == e.crc),
    (0x06, (tab.all fun e => decide (1 ≤ e.type) && decide (e.type ≤ 10) && decide (count e.type ≤ 1)) && count 1 == 1 && count 2 == 1 &&
      decide ((imgSec b 1).length ≤ 1048576)),
    (0x07, leAt b 16 1 == 0x42 && decide (leAt b 17 1 ≤ 0x31)),
    (0x08, factoryOk (imgSec b 2)),
    (0x09, contentOk b) ]

/-- The verification cause; 0 where every check holds. The checks after CONTENT come last (Table 17-3). -/
def verifyCause (keys : Vector (Option (List Byte)) 4) (b : List Byte) (len : Nat) (digestOk flashOk : Bool) : Nat :=
  match (imgChecks keys b len ++ [(0x0A, digestOk), (0x0B, flashOk)]).find? fun (c : Nat × Bool) => !c.2 with
  | some c => c.1
  | none => 0

/-! ### Flash (R484, R485, R496) -/

/-- An erase of a 64 KiB sector of a device is counted (R460); GAUGE_FLASH shows the most-erased sector. -/
def State.eraseCount (s : State) (d sector : Nat) : State :=
  let k := 1024 * d + sector
  let n := ((s.gauge.wear.find? (·.1 == k)).map (·.2)).getD 0 + 1
  let g := { s.gauge with wear := (k, n) :: s.gauge.wear.filter (·.1 != k) }
  { s with gauge := { g with flash := if d = 0 then (Nat.max g.flash.1 n, g.flash.2) else (g.flash.1, Nat.max g.flash.2 n) } }

/-- The image slot of a device. -/
def Caston.slot (c : Caston) (b : Bool) : Mem := if b then c.slotB else c.slotA
def Caston.setSlot (c : Caston) (b : Bool) (m : Mem) : Caston := if b then { c with slotB := m } else { c with slotA := m }

/-- One more than the highest SEQ in either commit area (R485). -/
def Caston.nextSeq (c : Caston) : Nat := Nat.max ((c.recA.map (·.seq)).getD 0) ((c.recB.map (·.seq)).getD 0) + 1

/-- A commit record is written into the area of a slot; the sector it enters first is erased (R485). -/
def State.writeCommit (s : State) (b : Bool) (r : CRec) : State :=
  let c := s.cast
  let n := if b then c.nrec.2 else c.nrec.1
  let s := if n % 1024 = 0 ∧ (s.slotRec b).isSome then s.eraseCount (if b then 1 else 0) (16 + n / 1024 % 2) else s
  let c := s.cast
  if b then { s with cast := { c with recB := some r, nrec := (c.nrec.1, (n + 1) % 2048) } }
  else { s with cast := { c with recA := some r, nrec := ((n + 1) % 2048, c.nrec.2) } }

/-- One 4 KiB block is programmed; its sector is erased when the session first programs it (R496). -/
def State.stageBlock (s : State) (b : Bool) (blk : Nat) (bytes : List Byte) : State :=
  let fresh := s.cast.staged.all fun x => x / 16 != blk / 16
  let s := if fresh then
      let s := s.eraseCount (if b then 1 else 0) (64 + blk / 16)
      { s with cast := s.cast.setSlot b (Memory.write (s.cast.slot b) (blk / 16 * 65536) (List.replicate 65536 0xFF)) }
    else s
  { s with cast := { (s.cast.setSlot b (Memory.write (s.cast.slot b) (blk * 4096) bytes)) with staged := s.cast.staged ++ [blk] } }

/-- Blocks of 4 KiB, from a first one. -/
def State.stageBlocks (s : State) (b : Bool) (first : Nat) : Nat → List Byte → State
  | 0, _ => s
  | n + 1, bytes => State.stageBlocks (s.stageBlock b first (bytes.take 4096)) b (first + 1) n (bytes.drop 4096)

/-! ### Staging and committing, from either interface (R495 to R497) -/

/-- An image command that an interface may not make: the other owns the session, or policy forbids it (R360, R495, R500). -/
def State.imageRefused (s : State) (by_ : Sess) : Option Nat :=
  if s.cast.owner ≠ .none ∧ s.cast.owner ≠ by_ then some 0x05
  else if !(s.cast.flags.getLsbD (if by_ = .usb then 2 else 0)) then some 0x09
  else none

/-- Blocks that a stage of `len` bytes from `ofs` names. -/
def stageList (ofs len : Nat) : List Nat := (List.range (len / 4096)).map (· + ofs / 4096)

/-- IMAGE_STAGE takes effect: the session begins with a RETIRE record (R495, R496). -/
def State.stage (s : State) (by_ : Sess) (ofs : Nat) (bytes : List Byte) : State :=
  let b := s.cast.stageSlot
  let s := if s.cast.owner = .none then
      let s := { s with cast := { s.cast with owner := by_, staged := [] } }
      let s := s.writeCommit b ⟨s.cast.nextSeq, false, 0, zeros 32⟩
      { s with cast := { s.cast with next := s.cast.newest } }
    else s
  s.stageBlocks b (ofs / 4096) (bytes.length / 4096) bytes

/-- IMAGE_COMMIT takes effect: the verification cause, 0 with a COMMIT record; the key is enrolled after it (R497). -/
def State.commit (s : State) (len : Nat) : Nat × State :=
  let b := s.cast.stageSlot
  let bytes := Memory.read (s.cast.slot b) 0 (Nat.min len slotSize)
  let staged := (stageList 0 len).all fun x => s.cast.staged.contains x
  let cause := verifyCause s.cast.keys bytes len true staged
  let s := { s with cast := if b then { s.cast with causeB := cause } else { s.cast with causeA := cause } }
  if cause ≠ 0 then (cause, s)
  else
    let s := s.writeCommit b ⟨s.cast.nextSeq, true, len, imgDigest bytes len⟩
    (0, { s with cast := { s.cast with next := some b } })

/-- The key that a commit of LEN bytes enrols, if the image holds one (R482, R497). -/
def State.commitKey (s : State) (len : Nat) : Option (List Byte) :=
  let bytes := Memory.read (s.cast.slot s.cast.stageSlot) 0 (Nat.min len slotSize)
  if imgHas bytes 10 then some (imgSec bytes 10) else none

/-! ### IMAGE_STAGE, IMAGE_COMMIT, IMAGE_COMMAND_ENDED (R351, R360) -/

/-- The image command at the front of the admin queue may start: no other runs, and flash may be written (R351, R440). -/
def State.imageFront (s : State) (opc : Nat) : Option Cmd :=
  if s.hq.image.isSome || s.psu.bind != .none then none else s.admFront opc

/-- The bytes that IMAGE_STAGE reads, or the DETAIL of its ACCESS_ERROR; none where the operand is no such read (R360, R546). -/
def State.stageBytes (s : State) (c : Cmd) (r : ReadRes) : Option (Sum Nat (List Byte)) :=
  let len := c.at_ 20 4
  if isHost c.addr then
    match s.hq.link, r with
    | true, .ok b => if b.length = len then some (.inr b) else none
    | _, _ => some (.inl 0x01)
  else match r with
    | .ecc => some (.inl 0x03)
    | _ => some (.inr (Memory.read s.lmem c.addr len))

/-- IMAGE_STAGE (R360, R496): its flash work runs in the background until IMAGE_COMMAND_ENDED. -/
def execImageStage (r : ReadRes) (s : State) : Res :=
  match s.imageFront 0x8A with
  | none => .next s
  | some c =>
    match s.imageRefused .host with
    | some cause => .next (s.admPop.invalid c cause 0)
    | none =>
      if (stageList (c.at_ 16 4) (c.at_ 20 4)).any s.cast.staged.contains then .next (s.admPop.invalid c 0x03 16)
      else match s.stageBytes c r with
        | none => .fault (.malformed "IMAGE_STAGE")
        | some (.inl d) =>
          let (n, s) := s.admPop.partial_ (c.at_ 20 4)
          .next (s.complete c stAccess d n)
        | some (.inr b) =>
          let nor := s.cast.nor none
          let s := s.admPop.stage .host (c.at_ 16 4) b
          .next { s with hq := { s.hq with image := some (c, stOk, 0, 0) }, cast := { s.cast with before := some nor } }

/-- IMAGE_COMMIT (R497). -/
def execImageCommit (s : State) : Res := live s fun s =>
  match s.imageFront 0x8B with
  | none => s
  | some c =>
    match s.imageRefused .host with
    | some cause => s.admPop.invalid c cause 0
    | none =>
      let len := c.at_ 16 4
      let key := s.commitKey len
      let nor := s.cast
      let (cause, s) := s.admPop.commit len
      let e := if cause = 0 then (c, stOk, 0, ((s.slotRec s.cast.stageSlot).map (·.seq)).getD 0) else (c, 0x30, 0x08, cause)
      { s with hq := { s.hq with image := some e }, cast := { s.cast with before := some (nor.nor (if cause = 0 then key else none)) } }

/-- IMAGE_COMMAND_ENDED: the background image command completes; a commit enrols its key and ends its session (R351, R495,
R497). -/
def execImageCommandEnded (s : State) : Res := live s fun s =>
  match s.hq.image with
  | none => s
  | some (c, st, d, r) =>
    let s := s.imageOver
    let s := if c.opc = 0x8B then { s with cast := { s.cast with owner := .none, staged := [] } } else s
    s.complete c st d r

end Sys2Proof.Machine
end

