-- ==== Sys2Proof/Machine/Gauge.lean ====
section
/-! DEFINITION. Gauge (chapter 16): the measurements as they complete, the ledger, its recovery and the estimate of remaining life. -/

namespace Sys2Proof.Machine

/-! ### The ledger (R469, R470) -/

/-- One copy takes an entry: the sector after the one it enters is erased, and with it the oldest entries (R469, R470). -/
def State.appendCopy (s : State) (d : Nat) (e : LEntry) : State :=
  let g := s.gauge
  let p := if d = 0 then g.pos.1 else g.pos.2
  let old := if d = 0 then g.copy0 else g.copy1
  let l := old ++ [e]
  let l := if p % 256 = 0 then l.drop (l.length - 3585) else l
  let p' := (p + 1) % 4096
  let g := if d = 0 then { g with copy0 := l, pos := (p', g.pos.2) } else { g with copy1 := l, pos := (g.pos.1, p') }
  let s := { s with gauge := g }
  if p % 256 = 0 then s.eraseCount d ((p / 256 + 1) % 16) else s

/-- LEDGER_COMMIT: the entry under way is in both copies (R470). -/
def execLedgerCommit (s : State) : Res := live s fun s =>
  match s.gauge.queue with
  | e :: l =>
    if s.psu.bind ≠ .none then s
    else ({ s with gauge := { s.gauge with queue := l, lseq := e.seq } } : State).appendCopy 0 e |>.appendCopy 1 e
  | [] => s

/-- A commit that Bind-off or the loss of power meets: the page program in progress completes and no other begins, so that the entry is in none,
one or both of the copies, a free choice (R440, R470, R471). -/
def State.cutCommit (s : State) : State :=
  match s.gauge.queue with
  | [] => s
  | e :: _ =>
    let (w, s) := s.draw
    let s := { s with gauge := { s.gauge with queue := [] } }
    match w.toNat % 3 with
    | 0 => s
    | 1 => s.appendCopy 0 e
    | _ => ({ s with gauge := { s.gauge with lseq := e.seq } } : State).appendCopy 0 e |>.appendCopy 1 e

/-- A measurement is complete: its wake-up crosses to the Supervisor (R460, Table 13-8). -/
def State.measured (s : State) : State := s.pulse 20

/-- The bytes of an entry in a copy (Table 16-3). -/
def LEntry.bytes (e : LEntry) (copy : Nat) : List Byte :=
  let b := ascii "GLED" ++ leBytes 4 e.seq ++ leBytes 4 e.pon ++ leBytes 4 e.boots ++ leBytes 4 e.eqh ++ leBytes 1 e.kind ++ leBytes 1 copy ++ zeros 2 ++
    leBytes 2 e.capEsr.1 ++ leBytes 2 e.capEsr.2 ++ e.iso.toList.flatMap (leBytes 1 ·) ++ e.zen.toList.flatMap (fun z => leBytes 2 (z % 65536).toNat) ++
    e.ncl.toList.flatMap (fun (v, d, k) => leBytes 1 v ++ leBytes 1 d ++ leBytes 2 k) ++
    leBytes 2 (e.tcxo.1 % 65536).toNat ++ leBytes 1 (putb e.tcxo.2 0) ++ zeros 1 ++
    leBytes 4 e.flash.1 ++ leBytes 4 e.flash.2 ++ leBytes 4 e.fan.1 ++ leBytes 1 e.fan.2 ++ zeros 3 ++
    ((e.ron ++ List.replicate 128 0).take 128).flatMap (leBytes 1 ·)
  let b := b ++ leBytes 2 e.life.1 ++ leBytes 1 e.life.2 ++ zeros 1 ++ leBytes 8 e.ts
  b ++ leBytes 4 (crc32c b).toNat

/-- GET_LOG of the ledger: its header and the entries of the recovered copy, oldest first (R472). -/
def Gauge.log (g : Gauge) : List Byte :=
  let l := if g.recovered then g.copy1 else g.copy0
  leBytes 4 l.length ++ leBytes 4 ((l.head?.map LEntry.seq).getD 0) ++ leBytes 4 ((l.getLast?.map LEntry.seq).getD 0) ++ leBytes 1 g.copyValid ++ zeros 51 ++
    l.flatMap fun e => e.bytes (if g.recovered then 1 else 0)

/-! ### Recovery (R471) -/

/-- The state that a ledger entry records is loaded (R471). -/
def State.loadEntry (s : State) (e : LEntry) : State :=
  let g := s.gauge
  { s with
    psu := { s.psu with cap := e.capEsr.1, esr := e.capEsr.2 }
    gauge := { g with
      lseq := e.seq, pon := e.pon, boots := e.boots, eqh := e.eqh * 3932160, iso := e.iso, zen := e.zen, volt := e.ncl.map (·.1)
      slack := e.ncl.map (·.2.2), tcxo := e.tcxo, flash := e.flash, fanMin := e.fan.1 * 60, fanRatio := e.fan.2, life := e.life
      ron := Vector.ofFn fun p => (e.ron.getD p.val 0) * g.fact[p] / 64, calAt := Vector.replicate 16 e.pon } }

/-- The newest entry of a copy. -/
def newestEntry (l : List LEntry) : Option LEntry := l.getLast?

/-- A copy that lacks the state is repaired with a start-up entry of the same SEQ, and LEDGER_COPY raised (R471). -/
def State.repairCopy (s : State) (d : Nat) (have_ : Option LEntry) (e : LEntry) : State :=
  if (have_.map (·.seq)).getD 0 < e.seq then (s.appendCopy d { e with kind := 3 }).gaugeArise 0x1B 0 0xC0 d 0 else s

/-- LEDGER_RECOVERY (R471): the newest entry of the two copies is the module's state; without one both copies start afresh from a genesis
entry. The Gauge bit is set and the start-up entry is due (R470). -/
def execLedgerRecovery (s : State) : Res := live s fun s =>
  if s.glb.gauge ∨ s.psu.bind ≠ .none then s
  else
    let a := newestEntry s.gauge.copy0
    let b := newestEntry s.gauge.copy1
    let valid := { s.gauge with copyValid := (if a.isSome then 1 else 0) + (if b.isSome then 2 else 0) }
    let s := { s with gauge := valid, glb := { s.glb with gauge := true } }
    let s := match a, b with
      | none, none =>
        let e : LEntry := { ({ State.reset with tick := s.tick } : State).mkEntry 4 1 with ron := List.replicate 128 0 }
        let s := s.report 0x1B 0 0xF3 0 0
        let s := ({ s with gauge := { s.gauge with copy0 := [], copy1 := [], pos := (0, 0), recovered := false } } : State).appendCopy 0 e |>.appendCopy 1 e
        s.loadEntry e
      | _, _ =>
        let sa := (a.map LEntry.seq).getD 0
        let sb := (b.map LEntry.seq).getD 0
        match (if sa < sb then b else a) with
        | some e =>
          let s := { s.loadEntry e with gauge := { (s.loadEntry e).gauge with recovered := decide (sa < sb) } }
          (s.repairCopy 0 a e).repairCopy 1 b e
        | none => s
    let s := { s with gauge := { s.gauge with boots := satInc s.gauge.boots } }
    let s := s.each (allFin 16) fun c s => s.calInterval c
    ((s.ledgerDue 3).lifeCheck).noteBoot

/-! ### The minute and the hour (R460, R470) -/

/-- 2^16 times 2^(e/80), rounded down. -/
def pow80 (e : Nat) : Nat := (List.range (e / 80 + 18)).reverse.foldl (fun n b => if (n + 2 ^ b) ^ 80 ≤ 2 ^ (1280 + e) then n + 2 ^ b else n) 0

/-- Equivalent minutes of one minute at an inlet reading of 0.125 °C, in 1/65,536: 2^((T7 − 45) ÷ 10), 1 below 45 °C (R460). -/
def eqMinute (t7 : Int) : Nat := if t7 < 360 then 65536 else pow80 (t7 - 360).toNat

/-- GAUGE_MINUTE (R460, R464). -/
def execGaugeMinute (ratio : Byte) (s : State) : Res := live s fun s =>
  if !s.glb.gauge then s
  else
    let g := s.gauge
    let fan := Config.variantF0 && decide (0 < s.fan.duty)
    let cool := if g.volt.all fun v => decide (v ≤ 88) then g.coolMin + 1 else 0
    let g := { g with
      pon := satInc g.pon, eqh := Nat.min (g.eqh + eqMinute s.fan.temp[(7 : Fin 24)]) (0xFFFFFFFF * 3932160)
      fanMin := if fan then g.fanMin + 1 else g.fanMin, fanRatio := if fan then ratio.toNat else g.fanRatio, coolMin := cool }
    let s := { s with gauge := g }
    if 1440 ≤ cool then { s with fan := { s.fan with tLow := false } } else s

/-- The ageing of the oscillator after some power-on minutes, 0.001 ppm: 1 ppm in the first year, half as much in each next one (R460). -/
def tcxoAge (m : Nat) : Nat := let y := m / 525600; (2000 * (2 ^ y - 1) * 525600 + 1000 * (m % 525600)) / (525600 * 2 ^ y)

/-- Minutes until the least-squares line through points (minute, value) reaches an end `eN`/`eD`, from the minute `now`: 0 where the line is
there already, none where it never comes there. `up`: the end lies above (R473). -/
def lineEnd (pts : List (Nat × Nat)) (now eN eD : Nat) (up : Bool) : Option Nat :=
  let n : Int := pts.length
  let sx : Int := pts.foldl (fun a p => a + p.1) 0
  let sy : Int := pts.foldl (fun a p => a + p.2) 0
  let sxx : Int := pts.foldl (fun a p => a + p.1 * p.1) 0
  let sxy : Int := pts.foldl (fun a p => a + p.1 * p.2) 0
  let den := n * sxx - sx * sx
  let b := n * sxy - sx * sy
  if den ≤ 0 then none
  else
    -- n · den · (line at `now` − end), with the end's denominator multiplied in
    let gap := (den * sy - b * sx + b * n * now) * eD - n * den * eN
    let gap := if up then gap else -gap
    let slope := (if up then b else -b) * n * eD
    if 0 ≤ gap then some 0 else if slope ≤ 0 then none else some ((-gap) / slope).toNat

/-- Weeks left for an item from its values over the last 90 days; 0xFFFF with less than 30 days of history (R473). -/
def weeksLeft (pts : List (Nat × Nat)) (now eN eD : Nat) (up : Bool) : Nat :=
  match pts.head? with
  | none => 0xFFFF
  | some p => if now < p.1 + 43200 then 0xFFFF else
    match lineEnd pts now eN eD up with
    | none => 0xFFFF
    | some m => Nat.min 0xFFFE (m / 10080)

/-- The capacitance at which v_need at 260 W and an ESR reaches 390 V, in 0.1 µF, as a fraction (Table 16-4, R438). -/
def capEnd (esr : Nat) : Nat × Nat :=
  let d := 300000 * 3900 - 2600 * esr
  (2600000 * 2600 * 300000 ^ 2, d ^ 2 - 9000000 * 300000 ^ 2)

/-- GAUGE_LIFE: the smallest estimate and its item, the first of Table 16-4 in a tie (R473). -/
def State.lifeEstimate (s : State) : Nat × Nat :=
  let g := s.gauge
  let es := (if g.recovered then g.copy1 else g.copy0).filter fun e => decide (g.pon ≤ e.pon + 129600)
  let w (f : LEntry → Nat) (eN eD : Nat) (up : Bool) : Nat := weeksLeft (es.map fun e => (e.pon, f e)) g.pon eN eD up
  -- values that have been measured
  let wm (f : LEntry → Nat) (eN eD : Nat) (up : Bool) : Nat := weeksLeft ((es.map fun e => (e.pon, f e)).filter fun p => p.2 ≠ 0) g.pon eN eD up
  let least (l : List Nat) : Nat := l.foldl Nat.min 0xFFFF
  let c := capEnd s.psu.esr
  let items : List (Nat × Nat) :=
    [ (if c.2 = 0 then 0 else w (·.capEsr.1) c.1 c.2 false, 1), (w (·.eqh) 175200 1 true, 2),
      (Nat.min (w (·.flash.1) 100000 1 true) (w (·.flash.2) 100000 1 true), 3),
      (Nat.min (w (·.fan.1) 40000 1 true) (wm (·.fan.2) 80 1 false), 4),
      (least ((List.range 128).map fun p => wm (fun e => e.ron.getD p 0) 128 1 true), 5),
      (least ((allFin 4).map fun k => w (fun e => (e.ncl[k]).1) 90 1 true), 6) ]
  items.foldl (fun b i => if i.1 < b.1 then i else b) (0xFFFF, 0)

/-- Ports of a Comb whose calibration falls due before the next hour: the interval of R466 would pass. -/
def State.calDue (s : State) (c : CombIx) : Word :=
  let g := s.gauge
  mapWord fun i =>
    decide (i < 8) &&
      (let p : PortIx := finOf 128 (8 * c.val + i)
       let last := Nat.max g.calAt[c] (((g.drift.find? (·.1 == p)).map (·.2.1)).getD 0)
       decide (last + 60 * (g.calInt[c] - 1) ≤ g.pon))

/-- HOURLY_ENTRY (R460, R466, R470, R473): the TCXO offset as the tick link gives it, or by the ageing model; calibrations that fall due are
requested; the life estimate is made and an entry is due. -/
def execHourlyEntry (offsetPpb : Option Int) (s : State) : Res := live s fun s =>
  if !s.glb.gauge then s
  else
    let g := s.gauge
    let linked := s.tick.role == .follower && s.tick.discEn
    let tcxo := match offsetPpb, linked with
      | some o, true => (clampI (-32768) 32767 o, true)
      | _, _ => (clampI (-32768) 32767 (g.tcxo.1 + (tcxoAge g.pon : Int) - (tcxoAge (g.pon - 60) : Int)), false)
    let s := { s with gauge := { g with tcxo := tcxo } }
    let s := s.each (allFin 16) fun c s => s.wrCalReq c (s.calDue c)
    let s := { s with gauge := { s.gauge with life := s.lifeEstimate } }
    (s.ledgerDue 1).lifeCheck

/-! ### Hold-up capacitors (R461) -/

/-- A capacitor measurement could not run or was abandoned; the seventh such in a row raises MEAS_FAIL. -/
def State.capFail (s : State) : State :=
  let n := s.gauge.capFails + 1
  let s := { s with gauge := { s.gauge with capFails := n } }
  if n = 7 then ({ s with gauge := { s.gauge with measFail := true } } : State).gaugeArise 0x1B 0 0xC7 1 0 else s

/-- V_end in 0.1 V. -/
def State.vEnd (s : State) : Nat := Nat.max 3800 (s.psu.vPfw + 50)

/-- CAP_MEASUREMENT (R461): the power-factor stage stops and the bus discharges, if every condition holds. -/
def execCapMeasurement (s : State) : Res := live s fun s =>
  let p := s.psu
  if !s.gauge.capEn ∨ s.gauge.capRun ≠ .idle ∨ !s.glb.gauge ∨ p.bind ≠ .none then s
  else if p.steady && p.mainsOk && !p.pfw && decide (200 ≤ p.pout.toNat) && decide (p.pout.toNat ≤ 2000) && decide (3950 ≤ p.vbus.toNat) &&
      decide (p.vbus.toNat ≤ 4050) && decide (s.vEnd ≤ 3920) then
    { s with psu := { p with pfc := false }, gauge := { s.gauge with capRun := .running p.vbus.toNat none, capLoad := p.pout.toNat } }
  else s.capFail

/-- ESR_PULSE (R461): the step under 2 A, in mV, gives the ESR in mΩ. -/
def execEsrPulse (stepMilliVolt : Nat) (s : State) : Res := live s fun s =>
  match s.gauge.capRun with
  | .running v _ => { s with gauge := { s.gauge with capRun := .running v (some (stepMilliVolt / 2 % 65536)) } }
  | .idle => s

/-- CAP_WEAR stands: the capacitance is below 150 µF (Table 16-2); raised when it falls there. -/
def State.capWear (s : State) (old : Nat) : State :=
  if s.psu.cap < 1500 ∧ (1500 ≤ old ∨ !(s.gauge.arisen.contains (0xC1, 0))) then s.gaugeArise 0x18 0 0xC1 0 (toW s.psu.cap) else s

/-- 2 · E ÷ (V_start² − V_end²) in 0.1 µF, rounded down, of an energy in µJ and voltages in 0.1 V (R461). -/
def capOf (energy start end_ : Nat) : Nat := 2000 * energy / (start ^ 2 - end_ ^ 2)

/-- The discharge ends, and the power-factor stage restarts (R461). -/
def State.capRestart (s : State) : State :=
  { s with psu := { s.psu with pfc := s.psu.bind == .none }, gauge := { s.gauge with capRun := .idle } }

/-- The output power is within ±5 % of that at the start of the discharge (R461). -/
def State.loadHeld (s : State) : Bool :=
  let p := s.psu.pout.toNat
  let l := s.gauge.capLoad
  decide (20 * p ≤ 21 * l) && decide (19 * l ≤ 20 * p)

/-- A discharge goes on only with the mains in range, the load held and V_end at 392 V or less (R461). -/
def State.capMayRun (s : State) : Bool := s.psu.bind == .none && s.psu.mainsOk && s.loadHeld && decide (s.vEnd ≤ 3920)

/-- The mains unit has measured: a discharge that may not go on is abandoned, and the stage restarts at once (R461). -/
def State.capGuard (s : State) : State :=
  match s.gauge.capRun, s.capMayRun with
  | .running .., false => s.capRestart.capFail
  | _, _ => s

/-- CAP_MEASUREMENT_END (R461): the stage restarts; the capacitance from the energy drawn, in µJ, and the ESR are published, or the measurement
is abandoned. -/
def execCapMeasurementEnd (energy : Option Nat) (h : HookWrites) (s : State) : Res := live s fun s =>
  match s.gauge.capRun with
  | .idle => s
  | .running start esr =>
    let s := s.capRestart
    match energy, s.capMayRun with
    | some e, true =>
      let old := s.psu.cap
      let s := { s with psu := { s.psu with cap := capOf e start s.vEnd % 65536, esr := esr.getD s.psu.esr }, gauge := { s.gauge with capFails := 0 } }
      (((s.ledgerDue 2).capWear old).measured).hook .fanGauge h
    | _, _ => if s.psu.bind = .none then s.capFail else s

/-! ### Isolators, slack, Zeners (R462 to R465) -/

/-- A Comb whose measurements are skipped (R460). -/
def State.combSkipped (s : State) (c : CombIx) : Bool := s.dom (16 + c.val) != .on || !s.combReady c

/-- REFLEX_PATH, ns: the fixed logic and the two largest isolator delays, rounded up (R462). -/
def reflexPath (iso : Vector Nat 16) : Nat :=
  let m := iso.foldl (fun (m : Nat × Nat) x => if m.1 < x then (x, m.1) else (m.1, Nat.max m.2 x)) (0, 0)
  18 + (m.1 + m.2 + 3) / 4

/-- ISO_MEASUREMENT (R282, R386, R462): the one-way delay of a Comb, in 0.25 ns. -/
def execIsoMeasurement (c : CombIx) (delay : Byte) (h : HookWrites) (s : State) : Res := live s fun s =>
  if !s.glb.gauge || s.combSkipped c then s
  else
    let d := delay.toNat
    let was := s.gauge.isoLow.getLsbD c.val
    let s := { s with gauge := { s.gauge with iso := s.gauge.iso.set c d
                                              isoLow := if 32 < d then s.gauge.isoLow ||| (1#16 <<< c.val) else s.gauge.isoLow &&& ~~~(1#16 <<< c.val) } }
    let s := if 32 < d ∧ !was then s.gaugeArise 0x05 c.val 0xC2 0 (toW d) else s
    let path := reflexPath s.gauge.iso
    let slow := s.rx.slow
    let s := { s with rx := { s.rx with path := Nat.min 255 path, slow := decide (38 < path) } }
    let s := if 38 < path ∧ !slow then s.report 0x13 0 0x96 0 0 else s
    s.measured.hook .fanGauge h

/-- SLACK_MEASUREMENT (R463, R464): a cluster's slack, ps, and whether it has stayed below 80 ps for 100 ms at 0.90 V. -/
def execSlackMeasurement (k : Fin 4) (slack : BitVec 16) (held100ms : Bool) (h : HookWrites) (s : State) : Res := live s fun s =>
  if !s.glb.gauge then s
  else
    let n := slack.toNat
    let v := s.gauge.volt[k]
    let v' := if n < 150 then Nat.min 90 (v + 1) else if 250 < n then Nat.max 75 (v - 1) else v
    let low := decide (n < 80) && v == 90
    let was := s.gauge.margin.getLsbD k.val
    let m := if low && (held100ms || was) then s.gauge.margin ||| (1#4 <<< k.val) else s.gauge.margin &&& ~~~(1#4 <<< k.val)
    let g := { s.gauge with volt := s.gauge.volt.set k v', slack := s.gauge.slack.set k n, margin := m }
    let s := { s with gauge := { g with coolMin := if 88 < v' then 0 else g.coolMin }, fan := { s.fan with tLow := s.fan.tLow || v' == 90 } }
    let s := if low && held100ms && !was then
        s.each ((allFin 16).filter fun i => clusterOf i = k) fun i s => s.gaugeArise 0x09 i.val 0xC5 0 (toW n)
      else s
    s.measured.hook .fanGauge h

/-- ZENER_COMPARISON (R465): the drift of a Comb's working Zener, 0.1 ppm. -/
def execZenerComparison (c : CombIx) (drift : Int) (h : HookWrites) (s : State) : Res := live s fun s =>
  if !s.glb.gauge || s.combSkipped c then s
  else
    let d := clampI (-32768) 32767 drift
    let was := decide (200 < (s.gauge.zen[c]).natAbs)
    let s := ({ s with gauge := { s.gauge with zen := s.gauge.zen.set c d } } : State).calInterval c
    let s := if 200 < d.natAbs ∧ !was then s.gaugeArise 0x05 c.val 0xC4 0 (toWi d) else s
    s.measured.hook .fanGauge h

end Sys2Proof.Machine
end

