-- ==== Sys2Proof/Machine/Frame.lean ====
section
/-! DEFINITION. The frame (chapter 02, R14 to R17, R446 to R449): the tick edge, DISPATCH with its grant pass, INPUT_READY, the STAGE
deadline, a period change, and the follower's tick link. -/

namespace Sys2Proof.Machine

/-! ### The tick message (R54, R55) -/

/-- The message of Table 2-2 without its CRC. -/
def tickBody (ts hop : Nat) (period : Word) (pend : Bool) (countdown : Nat) : Nat :=
  0xA5 + put (hop % 16) 12 + put (ts % 2 ^ 64) 16 + put (fld period 17 0) 80 + put (fld period 25 18) 98 + putb pend 106 + put (countdown % 8) 107

/-- A message with its CRC over bits [119:0]. -/
def withCrc (n : Nat) : BitVec 128 := BitVec.ofNat 128 (n + put (crc8 (msgBits (BitVec.ofNat 128 n))).toNat 120)

/-- The message a module sends at its tick edge: the master always, a follower with OUT_EN and a place in the chain (R54, R55). -/
def Tick.message (t : Tick) : Option (BitVec 128) :=
  let sends := match t.role with
    | .standalone => false
    | .master => true
    | .follower => t.outEn && !t.link.chainLong
  let hop := if t.role = .master then 0 else t.link.hop
  if !sends then none
  else some <| withCrc <| match t.pend with
    | some (v, 0) => tickBody t.edge hop v false 0
    | some (v, n + 1) => tickBody t.edge hop v true n
    | none => tickBody t.edge hop t.act false 0

/-! ### Loads (R47, R48, R320, R414) -/

/-- The mean period as STEPS × 256 + FRAC, in 1/256 of 4 ns (R36). -/
def meanUnits (w : Word) : Nat := fld w 17 0 * 256 + fld w 25 18

/-- `k` times the mean of the fractions, whole: each frame against its own budget. -/
def fracMean (k : Nat) (l : List (Nat × Nat)) : Nat :=
  let sum := l.foldl (fun (x : Nat × Nat) f =>
    let d := Nat.max 1 f.2
    let m := Nat.lcm x.2 d
    (x.1 * (m / x.2) + f.1 * (m / d), m)) (0, 1)
  k * sum.1 / (sum.2 * Nat.max 1 l.length)

/-- The Needle cycles of the frame just ended, of period `act`, are published, and NLOAD_HIGH raised on a rise above 950 (R47, R48, R414). -/
def State.closeLoads (s : State) (act : Word) : State :=
  let t := s.tick
  let cyc := Vector.ofFn fun (k : Fin 16) => Nat.min 0xFFFFF s.cores[k].cyc
  let loads := ((cyc.toList.sum, 16 * budgetOf act) :: t.loads).take 1024
  let ρ := Nat.min 1023 (fracMean 1000 loads)
  let high := decide (950 < ρ)
  let s := { s with
    tick := { t with budLast := cyc, budPeak := Vector.ofFn fun (k : Fin 16) => Nat.max t.budPeak[k] cyc[k], loads := loads, nload := ρ
                     nloadArmed := if high then false else t.nloadArmed || decide (ρ ≤ 900) }
    cores := s.cores.map fun c => { c with cyc := 0, run := c.run.map fun r => { r with cyc := 0, staged := false } } }
  if high && t.nloadArmed then s.report 0x10 0 0x89 0 (toW ρ) else s

/-- MOVE_LOAD: the bytes moved over the last frames against 16 GB/s, 0.1 % (R320). -/
def State.closeMoves (s : State) (act : Word) (bytes : Nat) : State :=
  let l := ((4 * bytes, meanUnits act) :: s.blk.mvLoads).take 1024
  { s with blk := { s.blk with mvLoads := l, mvLoad := Nat.min 1023 (fracMean 1000 l) } }

/-- Scout energy of a channel's run in the frame, pJ: every buffered entry, and what a sealed run adds (Table 9-7). -/
def Scout.energy (c : Scout) : Nat :=
  400 * c.wrote + (if c.run = .sealed then 6000 * c.deps.length + 2000 * (bufPorts c.buf).length else 0)

/-- The charges of the frame just ended: CH_CYC_LAST, the estimates, FAN_E_USED and the carry (R184, R447, R448). -/
def State.closeCharges (s : State) : State :=
  let work := s.chans.foldl (fun n x => n + (if x.granted then x.cyc * 1600 + x.used else 0) + (if x.sc.granted then x.sc.energy else 0)) 0
  let charged := work + (if s.fan.bulkOn then s.fan.bulkUsed else 0)
  { s with
    chans := s.chans.map fun x =>
      { x with cycLast := Nat.min 0xFFFFF x.cyc, cyc := 0, used := 0, est := if x.cyc = 0 ∧ x.used = 0 then x.est else some (x.cyc * 1600 + x.used)
               idleN := if x.state = .idle then Nat.min 256 (x.idleN + 1) else 0 }
    fan := { s.fan with charged := charged, eUsed := Nat.min 0xFFFFFFFF (charged / 1000), carry := charged - s.fan.reserved
                        bulkLast := s.fan.bulkUsed, bulkUsed := 0 } }

/-! ### The tick edge (R14, R15, R36, R60) -/

/-- What a follower keeps of its link at a tick edge: markers missed, and the measurement every 65,536 frames while LOCKED (R56, R58). -/
def TickLink.atEdge (l : TickLink) : TickLink :=
  let l := { l with missed := if l.seen then 0 else l.missed + 1, good := if l.seen then l.good else 0, near := if l.seen then l.near else 0
                    seen := false, probeOut := false }
  if l.state = .locked then
    if 65535 ≤ l.sinceCal then { l with sinceCal := 0, cal := l.cal.or (some (0, 0, 0)) } else { l with sinceCal := l.sinceCal + 1 }
  else l

/-- The tick message leaves at the tick edge (R54). -/
def State.sendTick (s : State) : State :=
  match s.tick.message with
  | some m => s.emit (.tickMsg m)
  | none => s

/-- Ports of the Combs that are ready. -/
def State.livePorts (s : State) : List PortIx := ((allFin 16).filter s.combReady).flatMap portsOf

/-- The commit of every port: a confirmed candidate, else the value taken at the STAGE deadline (R15, R280). -/
def State.commitPorts (s : State) : State :=
  s.each s.livePorts fun p s => s.commitPort p ((s.ports[p].o.cand.map (·.1)).or s.ports[p].o.taken)

/-- The settings written before this tick edge come into force at the ports whose PORT_SETTINGS_APPLY has not come first (R70). -/
def State.settlePorts (s : State) : State :=
  s.each (s.livePorts.filter fun p => (s.ports[p]).settingsWait && decide (s.ports[p].a.wrote < s.tick.frames)) fun p s => s.applySettings p

/-- TICK_EDGE (R14): the ports' output stages and window comparators as observed, and the bytes the Move engine moved in the frame. -/
def execTickEdge (obs : List EdgeObs) (moveBytes : Nat) (s : State) : Res := liveR s fun s =>
  if !s.glb.tick || s.tick.phase != .seal then s
  else
    let prev := s.tick.edge
    let act := s.tick.act
    let s := ({ s with tick := s.tick.next TickLink.atEdge } : State)
    let s := s.each (allFin 16) fun k s => s.chargeHeld k
    let s := (((s.closeLoads act).closeMoves act moveBytes).closeCharges).sendTick
    let s := { s with combs := s.combs.map fun c : Comb => { c with fsResume := false } }
    let ps := s.livePorts
    let ob (p : PortIx) : Option EdgeObs := obs.find? (·.port == p)
    let s := s.each ps fun p s => (s.portEdgeClose p prev (ob p)).scoutBand p (ob p)
    let s := s.settlePorts.scoutTick.commitPorts
    let s := s.each (ps.filter s.isDriving) fun p s => s.edgeShow p
    s.each ((allFin 16).filter s.combReady) fun c s => s.regroup c

/-- TICK_PERIOD (R37 to R39). -/
def execTickPeriod (_a : Agent) (v : Word) (s : State) : Res := live s fun s => s.wrTickPeriod v

/-- PERIOD_TAKES_EFFECT (R36, R38): at the edge counted down to, whose frame already has its length by the new period, TICK_PERIOD_ACT shows it and
nothing is pending. -/
def execPeriodTakesEffect (s : State) : Res := live s fun s =>
  match s.tick.pend with
  | some (v, 0) => if s.tick.phase = .edge then { s with tick := { s.tick with act := v, pend := none } } else s
  | _ => s

/-! ### DISPATCH and the grant pass (R41, R443, R446 to R449) -/

/-- The hottest of sensors 0 to 4, 0.125 °C (R443). -/
def Fan.tHot (f : Fan) : Int := (f.temp.toList.take 5).foldl max f.temp[(0 : Fin 24)]

/-- p_cap in mW, from the die power and the rest (R443, R446, R457). -/
def State.pCapNow (s : State) (e : EnergyObs) : Int :=
  let f := s.fan
  let g : Int := if f.fanFail then f.gThC else f.gTh
  let die := clampI 6000 28000 (e.pDie + g * (8 * (f.soft : Int) - f.tHot) * 25 / 2)
  min die (s.pMains * 100 - e.pRest)

/-- Channels by PRIO descending, then number ascending (R447). -/
def State.byPrio (s : State) (f : Chan → Bool) : List ChIx :=
  [7, 6, 5, 4, 3, 2, 1, 0].flatMap fun pr => (allFin 256).filter fun n => f s.chans[n] && s.chans[n].bind.prio == pr

/-- What a pass has found so far: the energy left, whether it has stopped, the channels reserved. -/
structure Pass where
  left : Int
  stop : Bool
  got : List ChIx
  deriving DecidableEq, Repr

/-- One channel of the pass: `free` if it is never refused. -/
def Pass.step (p : Pass) (n : ChIx) (est : Nat) (free : Bool) : Pass :=
  if free ∨ (!p.stop ∧ (est : Int) ≤ p.left) then { p with left := p.left - est, got := n :: p.got } else { p with stop := true }

/-- The Scout estimate of a channel, pJ (R447). -/
def Chan.scoutEst (x : Chan) : Nat :=
  x.sc.cyc * 1600 + 6000 * (depPorts x.sc.depAct).length + 2000 * (x.sc.lastCands.getD 1) + 64 * 400

/-- The grant pass with e_grant in pJ (R447, R449). -/
def State.grantPass (s : State) (eGrant : Int) : State :=
  let f := s.fan
  let elig := s.byPrio fun x => x.state == .active || x.state == .posting
  let p := elig.foldl (fun (p : Pass) n => p.step n s.chans[n].estimate (decide (f.floor ≤ s.chans[n].bind.prio))) ⟨eGrant, false, []⟩
  let stop := p.stop || s.prop.degraded || s.prop.grave
  let bulkEst := f.bulkLast + 4096 * 40
  let bulk := !stop && decide ((bulkEst : Int) ≤ p.left)
  let left := if bulk then p.left - bulkEst else p.left
  let en := (s.byPrio fun _ => true).filter s.scoutEn
  let q := en.foldl (fun (p : Pass) n => p.step n s.chans[n].scoutEst false) ⟨left, !bulk, []⟩
  let level := if p.stop then 3 else if !bulk then 2 else if q.got.length < en.length then 1 else 0
  let count (b : Bool) (n : Nat) : Nat := if b then Nat.min 1024 (n + 1) else 0
  let n := f.passN
  { s with
    chans := s.chans.mapFinIdx fun i x h =>
      { x with granted := p.got.contains ⟨i, h⟩, sc := { x.sc with granted := q.got.contains ⟨i, h⟩ && s.dom 5 == .on } }
    fan := { f with eGrant := eGrant / 1000, left := q.left, stopped := q.stop, reserved := (eGrant - q.left).toNat, bulkOn := bulk, level := level
                    negN := count (decide (q.left < 0)) f.negN, overdraw := f.overdraw && decide (q.left < 0)
                    passN := (count (decide (1 ≤ level)) n.1, count (!bulk) n.2.1, count (level == 0) n.2.2.1, count bulk n.2.2.2) } }

/-- DISPATCH (R41, R134, R187, R280, R312, R446, R447). -/
def execDispatch (e : EnergyObs) (s : State) : Res := live s fun s =>
  s.atPoint .dispatch fun s =>
    let s := { s with chans := s.chans.map fun x : Chan => if x.wait = ChWait.waitf then { x with waitN := x.waitN - 1 } else x }
    let s := s.mcPhase false
    let cap := s.pCapNow e
    let s := { s with fan := { s.fan with pCap := cap / 100 } }
    let s := s.grantPass (cap * (meanUnits s.tick.act : Int) / 64 - e.eBase * 1000 - s.fan.carry)
    let s := s.releaseScout
    s.each s.livePorts fun p s => s.ssiStart p

/-! ### INPUT_READY and the STAGE deadline (R41 to R44) -/

/-- A driver's on-resistance as measured, mΩ; DRIVER_WEAR on each crossing of twice the factory value (R460, R467). -/
def State.driverRon (s : State) (p : PortIx) (r : Nat) : State :=
  let g := s.gauge
  if !s.glb.gauge || !s.fsDependent p then s
  else
    let s := { s with gauge := { g with ron := g.ron.set p (r % 65536) } }
    if g.fact[p] ≠ 0 ∧ 2 * g.fact[p] < r ∧ g.ron[p] ≤ 2 * g.fact[p] then s.gaugeArise 0x01 p.val 0xC3 0 (toW r) else s

/-- INPUT_READY (R41, R42, R76 to R78, R89, R270, R281, R290, R312): the load monitors, driver currents and field supplies as observed. -/
def execInputReady (obs : List FrameObs) (fs : List (CombIx × BitVec 16)) (s : State) : Res := liveR s fun s =>
  s.atPoint .input fun s =>
    let s := s.each fs fun x s => if s.combReady x.1 then s.modComb x.1 fun c => { c with volt := x.2 } else s
    let s := s.scoutSettings
    let ob (p : PortIx) : Option FrameObs := obs.find? (·.port == p)
    let s := s.each s.livePorts fun p s =>
      let s := (s.portReady p (((ob p).map (·.load)).getD 0)).scoutPredict p
      match (ob p).bind (·.ron) with
      | some r => s.driverRon p r
      | none => s
    let s := s.each ((allFin 256).filter fun n => s.chans[n].sc.judged) fun n s => s.scoutGrey n
    s.mcPhase true

/-- An operation or a MOVE of the channel waits for a grant (R183). -/
def Chan.defers (x : Chan) : Bool :=
  x.state == .active && !x.granted &&
    ((match x.op with | some o => o.ready && o.core.isNone | none => false) ||
     (match x.ent with | some e => e.op == 0x80 && x.wait == .executing | none => false))

/-- CH_DEFER_CNT counts one (R183). -/
def State.deferOne (s : State) (n : ChIx) : State :=
  let old := s.chans[n].deferCnt
  let s := s.modChan n fun x => { x with deferCnt := satInc old, ovf := x.ovf || old == 0xFFFFFFFE }
  s.cntSat 0x08 n.val (0x300000 + n.val * 0x100 + 0x38) old

/-- STAGE_DEADLINE (R43, R44, R183): routines that may stage are cut off, then the last value staged at each port is taken. -/
def execStageDeadline (s : State) : Res := live s fun s =>
  s.atPoint .stage fun s =>
    let s := s.each (allFin 16) fun k s => match s.cores[k].run with
      | some r => if r.timed && !r.scout then s.hardCutoff k else s
      | none => s
    let s := { s with ports := s.ports.map fun x : Port =>
      match x.o.stg.getLast? with
      | some v => { x with o := { x.o with taken := some v.2, stg := [] } }
      | none => x }
    s.each ((allFin 256).filter fun n => s.chans[n].defers) fun n s => s.deferOne n

/-! ### The tick link of a follower (R55 to R60) -/

/-- A frame of the follower's own tick, or of its acquisition tick, in LSB of 0.25 ns. -/
def State.ownFrame (s : State) : Int := if s.glb.tick then 16 * (s.tick.len : Int) else (meanUnits s.tick.link.carried : Int) / 16

/-- The last edge of that tick before the next one. -/
def State.ownEdge (s : State) : Int := if s.glb.tick then s.tick.edge else s.tick.link.acqEdge - s.ownFrame

/-- The marker's phase error against the nearest own edge (R58). -/
def State.phaseOf (s : State) (arrival : Int) : Int :=
  let d := arrival - (s.tick.link.dly : Int) - s.ownEdge
  if s.ownFrame < 2 * d then d - s.ownFrame else d

/-- A valid message: the marker, the carried period and the place in the chain (R55, R58, R59). CHAIN_LONG clears (log entry 97). While a message
carries PEND it carries no period in force: the last one carried without PEND stays that of the acquisition tick (log entry 98). A follower that
has locked takes a pending change from it, and a period in force that differs from its own is adopted at the next tick edge (R39). -/
def State.takeMarker (s : State) (m : Nat) (arrival : Int) : State :=
  let t := s.tick
  let l := t.link
  let period : Word := toW (m / 2 ^ 80 % 2 ^ 26)
  let pend := m / 2 ^ 106 % 2 == 1
  let pe := clampI (-32768) 32767 (s.phaseOf arrival)
  let carried := if pend then l.carried else period
  let link := { l with
    hop := m / 2 ^ 12 % 16 + 1, chainLong := false, seen := true, good := l.good + 1, phaseErr := pe, near := if pe.natAbs ≤ 16 then l.near + 1 else 0
    carried := carried, carriedTs := m / 2 ^ 16 % 2 ^ 64
    acqEdge := arrival - (l.dly : Int) + (meanUnits carried : Int) / 16 }
  let follows := s.glb.tick && (l.state == .locked || l.state == .acquire)
  let own := match t.pend with
    | some (v, 0) => v
    | _ => t.act
  let pending := if follows && pend then some (period, m / 2 ^ 107 % 8 + 1) else t.pend
  let adopt := if follows && !pend && period != own then some period else l.adopt
  { s with tick := { t with link := { link with adopt := adopt }, pend := pending } }

/-- TICK_MESSAGE_RECEIVE (R55): a message with a wrong SYNC or CRC, or a reserved TYPE, is no marker; one with HOP = 7 or more leaves no place. -/
def execTickMessageReceive (m : BitVec 128) (arrival : Int) (s : State) : Res := live s fun s =>
  let n := m.toNat
  let ok := n % 256 == 0xA5 && (crc8 (msgBits m)).toNat == n / 2 ^ 120
  if s.tick.role ≠ .follower ∨ !ok ∨ n / 2 ^ 8 % 16 ≠ 0 then s
  else if 7 ≤ n / 2 ^ 12 % 16 then { s with tick := { s.tick with link := { s.tick.link with chainLong := true, good := 0 } } }
  else s.takeMarker n arrival

/-- CAL_REQ (R56). -/
def execCalReq (_a : Agent) (v : Word) (s : State) : Res := live s fun s => s.wrTickCtrl v

/-- A change of the follower's link. -/
def State.linkSet (s : State) (f : TickLink → TickLink) : State := { s with tick := { s.tick with link := f s.tick.link } }

/-- CABLE_PROBE (R56): one probe in each frame of a measurement. -/
def execCableProbe (s : State) : Res := live s fun s =>
  match s.tick.role, s.tick.link.cal with
  | .follower, some (n, r, sum) =>
    if s.tick.link.probeOut ∨ 64 ≤ n then s
    else (s.linkSet fun l => { l with cal := some (n + 1, r, sum), probeOut := true }).emit .probe
  | _, _ => s

/-- PROBE_RETURN (R56): the upstream module sends a probe back, or a measuring follower takes the round trip of the one it sent. -/
def execProbeReturn (upstream : Bool) (roundTrip : Nat) (s : State) : Res := live s fun s =>
  if upstream then s.emit .probe
  else match s.tick.role, s.tick.link.cal with
    | .follower, some (n, r, sum) =>
      if s.tick.link.probeOut ∧ r < n then s.linkSet fun l => { l with cal := some (n, r + 1, sum + roundTrip) } else s
    | _, _ => s

/-- CABLE_DELAY_DONE (R56, R57): the mean of (round trip − 256 ns) ÷ 2 is the delay; above 600 ns, or with more than 4 probes lost, CAL_ERR. -/
def execCableDelayDone (s : State) : Res := live s fun s =>
  match s.tick.role, s.tick.link.cal with
  | .follower, some (n, r, sum) =>
    if n < 64 then s
    else
      let mean : Int := roundDiv ((sum : Int) - 1024 * r) (2 * Nat.max 1 r)
      let bad := decide (r + 4 < 64) || decide (2400 < mean)
      let s := { s with tick := { s.tick with calReq := false } }
      s.linkSet fun l => if bad then { l with cal := none, calErr := true }
        else { l with cal := none, dly := mean.toNat, calDone := true, measured := true }
  | _, _ => s

/-- LINK_ACQUIRE (R58, Table 2-3): the measurement starts; after the first lock a period in force that differs is adopted at the next edge. -/
def execLinkAcquire (s : State) : Res := live s fun s =>
  let l := s.tick.link
  if s.tick.role ≠ .follower ∨ l.chainLong ∨ l.good < 8 ∨ (l.state ≠ .free ∧ l.state ≠ .holdover) then s
  else
    let adopt := if l.state = .holdover ∧ l.carried ≠ s.tick.act then some l.carried else l.adopt
    s.linkSet fun l => { l with adopt := adopt, state := .acquire, cal := some (0, 0, 0), measured := false, near := 0 }

/-- LINK_LOCK (R49, R58, R59, Table 2-3): at the first lock the time base starts at EDGE_TS and the delay, the carried period is adopted, and the
acquisition tick becomes the module's. -/
def execLinkLock (s : State) : Res := live s fun s =>
  let t := s.tick
  let l := t.link
  if t.role ≠ .follower ∨ l.state ≠ .acquire ∨ !l.measured ∨ l.near < 64 then s
  else
    let s := s.linkSet fun l => { l with state := .locked, everLocked := true, sinceCal := 0 }
    if l.everLocked ∨ s.glb.tick then s
    else
      let t := s.tick
      State.noteBoot { s with
        glb := { s.glb with tick := true }
        tick := { t with started := true, now := l.carriedTs + l.dly, edge := ((l.carriedTs : Int) - l.phaseErr).toNat, act := l.carried
                         ofs := ((l.dly : Int) + l.phaseErr).toNat
                         acc := fld l.carried 25 18, len := fld l.carried 17 0, slew := 0, phase := .edge, pend := none } }

/-- MARKER_LOST (R58, Table 2-3). -/
def execMarkerLost (s : State) : Res := live s fun s =>
  let l := s.tick.link
  if s.tick.role ≠ .follower ∨ l.missed < 3 ∨ (l.state ≠ .acquire ∧ l.state ≠ .locked) then s
  else if !l.everLocked then s.linkSet fun l => { l with state := .free, cal := none, good := 0, near := 0 }
  else (s.linkSet fun l => { l with state := .holdover, cal := none, good := 0, near := 0, markerLost := true }).report 0x10 0 0x88 0 0

/-- ACQUISITION_TICK (R59): the acquisition tick's edge falls; the next is one carried period on unless a marker places it. It is not the module's
tick, so no message leaves at it, OUT_EN or not (log entry 99). -/
def execAcquisitionTick (s : State) : Res := live s fun s =>
  if s.tick.role ≠ .follower ∨ s.glb.tick then s
  else s.linkSet fun l => { l.atEdge with acqEdge := l.acqEdge + (meanUnits l.carried : Int) / 16 }

end Sys2Proof.Machine
end

