-- ==== Sys2Proof/Machine/Power.lean ====
section
/-! DEFINITION. Fanning and the mains unit as events bring them (chapter 15): measurements, Bind-off, the power domains, the fan. -/

namespace Sys2Proof.Machine

/-! ### The mains unit (R438, R444) -/

/-- v_need at a power in 0.1 W, with a capacitance in 0.1 µF and an ESR in mΩ, is at most v in 0.1 V (R438). -/
def vNeedLe (p c esr v : Nat) : Bool :=
  decide (p * esr ≤ 300000 * v) && decide (300000 ^ 2 * (9000000 * c + 2600000 * p) ≤ (300000 * v - p * esr) ^ 2 * c)

/-- max(330 V, v_need) in 0.1 V, v_need rounded up, at most 390 V (R438). -/
def vFloor (p c esr : Nat) : Nat := (((List.range 601).map (· + 3300)).find? fun v => vNeedLe p c esr v).getD 3900

/-- p_hold, W (R444). -/
def pHoldOf (c esr : Nat) : Nat := ((List.range 261).reverse.find? fun p => vNeedLe (10 * p) c esr 3900).getD 0

/-- V_PFW (R437, R438, R444): the measured values and the threshold of the next 1 ms; OVERLOAD ends with its condition, and a
capacitor measurement that may not go on is abandoned (R461). -/
def execVPfw (obs : PsuObs) (s : State) : Res := live s fun s =>
  let p := s.psu
  let s := { s with psu := { p with
    mainsOk := obs.mainsOk, vin := obs.vin, vbus := obs.vbus, pout := obs.pout, steady := obs.steady
    vPfw := Nat.min 3900 (vFloor obs.pMax p.cap p.esr + 10 * p.margin), holdupLow := !vNeedLe obs.pMax p.cap p.esr 3900
    pHold := pHoldOf p.cap p.esr } }
  State.capGuard { s with fan := { s.fan with overload := s.fan.overload && decide (s.pMains < (obs.pout.toNat : Int)) } }

/-! ### Bind-off (R164, R439, R440) -/

/-- A core's routine ends with its domain; a Scout run as an ABORT with cause DOMAIN (R290). -/
def State.stopForDomain (s : State) (k : CoreIx) : State :=
  match s.cores[k].run with
  | some r => if r.scout then s.scoutAbort r.ch 0xF5 else s.stopCore k
  | none => s

/-- The mezzanine goes down: what waits or is on its bus counts as not executed, and a released entry has failed (R261, R262, R290). -/
def State.mezzDown (s : State) : State :=
  let rel := s.mezz.rel
  let s := { s with mezz := { s.mezz with bus := none, rel := none, idOk := false } }
  let s := s.each (allFin 16) fun k s => match s.cores[k].hold with
    | some (.mezz ..) => s.unhold k
    | _ => s
  match rel with
  | some n => s.mzReleased n false
  | none => s

/-- Every outstanding command of every channel and move channel completes with DOMAIN_DOWN, DETAIL 0 (Table 15-1). -/
def State.endAllWork (s : State) : State :=
  let s := s.each (allFin 16) fun k s => s.stopForDomain k
  let s := s.each ((allFin 256).filter fun n => s.chans[n].sc.run != .none) fun n s => s.scoutAbort n 0xF5
  let s := s.each ((allFin 256).filter fun n => s.chans[n].state != .idle && s.chans[n].state != .fenced) fun n s =>
    let x := s.chans[n]
    let s := s.each (x.cur.toList ++ x.pend) fun c s => s.complete c stDomain 0 0
    let s := s.modChan n fun x =>
      { x.boundary with state := if x.state = .check then .check else .idle, wait := .executing, depth := 0, resPend := false, ent := none, op := none
                        waitN := 0, cont := none, cur := none
                        pend := [], halting := false, clear := none }
    match x.clear with
    | some c => s.endRunning c stOk 0 0
    | none => s
  s.each ((allFin 64).filter fun m => s.mcs[m].state != .idle && s.mcs[m].state != .check) fun m s =>
    let o := s.mcs[m].owner
    let s := s.modMc m fun x => { x.rest .idle with lact := false, lc := 0 }
    match o with
    | .cmd c => s.complete c stDomain 0 0
    | _ => s

/-- Bind-off begins, with its cause for PSU_STAT.LAST_OFF (Table 15-1, B+0); the first cause stays (Table 15-5). -/
def State.bindOff (s : State) (cause : Nat) : State :=
  if s.psu.bind ≠ .none then s
  else
    let s := { s with
      psu := { s.psu with bind := .begun, lastOff := cause }
      gauge := { s.gauge with capRun := .idle }
      cast := { s.cast with restarting := false } }
    let s := (s.cutCommit.cutImage.releaseAll).openDe 0xF
    let s := s.endAllWork.mezzDown
    let s := { s with fan := { s.fan with dom := s.fan.dom.mapFinIdx fun i d _ => if 1 ≤ i ∧ i ≤ 7 then .off else d } }
    s.reholdAll

/-- POWER_FAIL_WARNING (R439). -/
def execPowerFailWarning (s : State) : Res := liveR s fun s =>
  if s.psu.bind ≠ .none then { s with psu := { s.psu with pfw := true } }
  else ({ s with psu := { s.psu with pfw := true } }.report 0x18 0 0xB8 0 0).bindOff 1

/-- PRIMARY_OV (R415, R439). -/
def execPrimaryOv (s : State) : Res := liveR s fun s =>
  ({ s with psu := { s.psu with pfc := false } }.report 0x18 0 0xF2 0 0).bindOff 3

/-- A pin goes high-impedance and stays so. -/
def State.pinOff (s : State) (p : PortIx) : State :=
  s.modPort p fun x => let x := x.stopFn.floatPin s.now; { x with o := { x.o with held := .hiz, bound := true } }

/-- DRIVING_PORTS_HIZ (R164, Table 5-6). -/
def execDrivingPortsHiz (s : State) : Res := liveR s fun s =>
  if s.psu.bind = .none then s
  else s.each ((allFin 64).filter fun j => s.pairs[j].link) fun j s => (s.modPair j fun x => { x with regen := false }).pinOff (s.drivPort j)

/-- HOST_REQUESTS_END (R440). -/
def execHostRequestsEnd (s : State) : Res := live s fun s =>
  if s.psu.bind = .begun then { s with psu := { s.psu with bind := .quiet }, hq := { s.hq with issues := false } } else s

/-- COMB_SUPPLIES_OFF (R440): with its supply gone a Comb is no longer ready (R489). -/
def execCombSuppliesOff (s : State) : Res := liveR s fun s =>
  if s.psu.bind = .quiet then
    let s := State.dropHolds { s with
      psu := { s.psu with bind := .combsOff }, rx := { s.rx with armed := false }, glb := { s.glb with comb := 0 }
      fan := { s.fan with dom := s.fan.dom.mapFinIdx fun i d _ => if 16 ≤ i then .off else d } }
    s.each (allFin 128) fun p s => s.pinOff p
  else s

/-- OUTPUTS_OFF (R440): the supplies are gone. -/
def execOutputsOff (s : State) : Res := live s fun s => if s.psu.bind = .combsOff then { s with psu := { s.psu with bind := .off } } else s

/-! ### Temperatures and the fan (R442, R443, R457, R458) -/

/-- The duty that FAN_CURVE gives at a heatsink reading in 0.125 °C, % (R457). -/
def Fan.dutyAt (f : Fan) (t : Int) : Nat :=
  let lo : Int := 8 * (f.curve.2 : Int)
  let hi : Int := 8 * (f.curve.1 : Int)
  if f.fanFail then 100 else if t < lo then 0 else if hi ≤ t then 100 else (20 + 80 * (t - lo) / (hi - lo)).toNat

/-- The fan follows the heatsink; domain 8 is up while it runs. The tachometer's reading is free (log entry 9). -/
def State.driveFan (s : State) : State :=
  if !Config.variantF0 then s
  else
    let d := s.fan.dutyAt s.fan.temp[(6 : Fin 24)]
    let (w, s) := s.draw
    { s with fan := { s.fan with duty := d, rpm := if d = 0 then 0 else w.toNat % 65536, dom := s.fan.dom.set 8 (if d = 0 then .off else .on) } }

/-- COMB_HOT of one Comb (Table 15-2). -/
def State.combHotCheck (s : State) (c : CombIx) : State :=
  let hot := decide (8 * (s.fan.combHot : Int) < s.fan.temp[(finOf 24 (8 + c.val) : Fin 24)])
  let was := s.fan.hot.getLsbD c.val
  let s := { s with fan := { s.fan with hot := if hot then s.fan.hot ||| (1#16 <<< c.val) else s.fan.hot &&& ~~~(1#16 <<< c.val) } }
  if hot && !was then s.report 0x05 c.val 0xBE 0 0 else s

/-- TEMPERATURE_READ (R439, R442, R443, R457, R458), in 0.125 °C: published; THERM_SOFT, COMB_HOT, the fan, and the hard trip. -/
def execTemperatureRead (t : Vector Int 24) (s : State) : Res := liveR s fun s =>
  let s := { s with fan := { s.fan with temp := t.map (clampI (-32768) 32767) } }
  let f := s.fan
  let soft := decide (8 * (f.soft : Int) < f.tHot)
  let psu5 := decide ((880 : Int) < f.temp[(5 : Fin 24)])
  let k := ((List.range 5).find? fun i => decide (f.temp[(finOf 24 i : Fin 24)] = f.tHot)).getD 0
  let s := { s with fan := { f with thermSoft := soft, hot5 := psu5 } }
  let s := if soft && !f.thermSoft then s.report 0x1A 0 0xB9 0 (toW k) else s
  let s := if psu5 && !f.hot5 then s.report 0x1A 0 0xB9 0 5 else s
  let s := s.each (allFin 16) fun c s => s.combHotCheck c
  let s := s.driveFan
  if 840 ≤ f.tHot then s.bindOff 2 else s

/-- FAN_FAIL (R457). -/
def execFanFail (s : State) : Res := live s fun s =>
  if !Config.variantF0 ∨ s.fan.fanFail ∨ s.fan.duty = 0 then s
  else ({ s with fan := { s.fan with fanFail := true, duty := 100 } } : State).report 0x1A 0 0xBC 0 0

/-- FAN_FAIL_CLEAR (R542). -/
def execFanFailClear (s : State) : Res := live s fun s =>
  if s.fan.fanFail then ({ s with fan := { s.fan with fanFail := false } } : State).driveFan else s

/-- OVERLOAD (R444): the measured output has exceeded p_mains for 1 s. -/
def execOverload (s : State) : Res := live s fun s =>
  if s.fan.overload ∨ (s.psu.pout.toNat : Int) ≤ s.pMains then s
  else ({ s with fan := { s.fan with overload := true } } : State).report 0x1A 0 0xBF 0 0

/-- OVERDRAW (R449): left has ended negative in 1,024 consecutive passes. -/
def execOverdraw (s : State) : Res := live s fun s =>
  if s.fan.overdraw ∨ s.fan.negN < 1024 then s
  else ({ s with fan := { s.fan with overdraw := true } } : State).report 0x1A 0 0xBA 0 (toWi (-s.fan.left / 1000))

/-! ### Power domains (R450 to R456) -/

/-- A Comb may be powered down: every port in IDLE, every linked pair in BYPASS, no in-service calibration (R455). -/
def State.combMayRest (s : State) (c : CombIx) : Bool :=
  (portsOf c).all (fun p => s.ports[p].r.mode.toNat % 256 == 0 && s.ports[p].md == mIdle && s.ports[p].a.change.isNone) &&
    ((allFin 4).all fun i => let j : PairIx := finOf 64 (4 * c.val + i.val); !s.pairs[j].link || s.pairs[j].mode == .bypass) &&
    s.combs[c].calPort.isNone

/-- A move program whose descriptor in execution names the domain gets a stop request (R452). -/
def State.stopMovesIn (s : State) (n : Nat) : State :=
  { s with mcs := s.mcs.map fun x => if x.inDomain n then { x with stop := true, stopDom := some n } else x }

/-- Mezzanine instructions that wait for their grant: no transaction starts any more, and they raise MZ_DOWN (R261, R452). -/
def State.mezzDrain (s : State) : State :=
  s.each (allFin 16) fun k s => match s.cores[k].hold with
    | some (.mezz _ w _ _ _ false) => s.mzTrap k w 0x09 0
    | _ => s

/-- A domain enters DRAINING (R452); with SCOUT, runs that have not begun are withheld (R454). -/
def State.drain (s : State) (n : Fin 32) : State :=
  let s := ({ s with fan := { s.fan with dom := s.fan.dom.set n .draining } } : State).stopMovesIn n.val
  if n.val = 5 then
    { s with chans := s.chans.map fun x : Chan => if x.sc.run = ScRun.waiting true then { x with sc := { x.sc with run := .waiting false } } else x }
  else if n.val = 7 then s.mezzDrain
  else s

/-- A domain is requested off, or up again (R451, R454, Table 15-5). -/
def State.domainDown (s : State) (n : Fin 32) : State :=
  let s := { s with fan := { s.fan with auto := s.fan.auto &&& ~~~(1#32 <<< n.val) } }
  match s.dom n.val with
  | .on | .rising => s.drain n
  | _ => s

def State.domainUp (s : State) (n : Fin 32) : State :=
  let s := { s with fan := { s.fan with auto := s.fan.auto &&& ~~~(1#32 <<< n.val) } }
  if s.dom n.val = .off then { s with fan := { s.fan with dom := s.fan.dom.set n .rising } } else s

/-- FAN_DOM_REQ (R451). -/
def State.wrDomReq (s : State) (v : Word) : State :=
  if v &&& 0xFF01 ≠ 0 ∨ (allFin 16).any (fun c => v.getLsbD (16 + c.val) && !s.combMayRest c) then
    { s with fan := { s.fan with domRej := true } }
  else
    let old := s.fan.req
    let s := { s with fan := { s.fan with req := v } }
    let s := s.each ((allFin 32).filter fun n => v.getLsbD n.val && !old.getLsbD n.val) fun n s => s.domainDown n
    s.each ((allFin 32).filter fun n => !v.getLsbD n.val && old.getLsbD n.val) fun n s => s.domainUp n

/-- DOMAIN_POWER_DOWN, DOMAIN_POWER_UP: a write of FAN_DOM_REQ (R451). -/
def execDomainPowerDown (_a : Agent) (v : Word) (s : State) : Res := live s fun s => s.wrDomReq v
def execDomainPowerUp (_a : Agent) (v : Word) (s : State) : Res := live s fun s => s.wrDomReq v

/-- A BULK program that is executing a descriptor remains in the BULK domain (R452). -/
def Mc.inBulk (x : Mc) : Bool := x.bulk && x.state == .running && x.desc.isSome

/-- Nothing remains in a draining domain (R452). -/
def State.drained (s : State) (n : Fin 32) : Bool :=
  if 1 ≤ n.val ∧ n.val ≤ 4 then
    ((allFin 16).all fun k => (clusterOf k).val + 1 != n.val || s.cores[k].run.isNone) && !(s.mcs.any fun x => x.inDomain n.val)
  else if n.val = 5 then s.chans.all fun x => x.sc.run == .none || x.sc.run == .waiting false || x.sc.run == .curtailed ||
    (match x.sc.run with | .aborted _ => true | _ => false)
  else if n.val = 6 then s.mcs.all fun x => !x.inBulk
  else if n.val = 7 then s.mezz.bus.isNone
  else true

/-- A port as its Comb's loss of supply leaves it: cold-reset values, a locked safe state apart (R377, R455). -/
def Port.cold (x : Port) : Port := { r := { safe := if x.safeLock then x.r.safe else 0x20000000 }, safeLock := x.safeLock }

/-- A Comb goes back to its cold-reset registers; the factory Zener value stays (R455). -/
def State.coldComb (s : State) (c : CombIx) : State :=
  let s := s.each (portsOf c) fun p s => s.modPort p Port.cold
  ({ s with cast := { s.cast with calib := s.cast.calib &&& ~~~(1#16 <<< c.val) } } : State).modComb c fun x => { zener := x.zener }

/-- A domain turns OFF (R452, R455); a request to come up that arrived during the drain follows at once (Table 15-5). -/
def State.domainOff (s : State) (n : Fin 32) : State :=
  let s := { s with fan := { s.fan with dom := s.fan.dom.set n .off } }
  let s := if 16 ≤ n.val then
      let c : CombIx := finOf 16 (n.val - 16)
      (State.dropHolds { s with glb := { s.glb with comb := s.glb.comb &&& ~~~(1#16 <<< c.val) } }).coldComb c
    else if n.val = 7 then s.mezzDown
    else s
  if s.fan.req.getLsbD n.val || s.fan.auto.getLsbD n.val then s
  else { s with fan := { s.fan with dom := s.fan.dom.set n .rising } }

/-- DOMAIN_OFF (R452). -/
def execDomainOff (n : Fin 32) (s : State) : Res := liveR s fun s => if s.dom n.val = .draining ∧ s.drained n then s.domainOff n else s

/-- What remains in a domain at the drain limit is fenced (R453). -/
def State.fenceDrain (s : State) (n : Fin 32) : State :=
  let s := s.each ((allFin 16).filter fun k => (clusterOf k).val + 1 == n.val) fun k s => match s.cores[k].run with
    | some r => if r.scout then s.scoutAbort r.ch 0xF5 else (s.stopCore k).check r.ch 0x22 n.val
    | none => s
  let s := if n.val = 5 then s.each ((allFin 256).filter fun i => s.chans[i].sc.run != .none) fun i s => s.scoutAbort i 0xF5 else s
  let s := s.each ((allFin 64).filter fun m => s.mcs[m].stopDom == some n.val || (n.val == 6 && s.mcs[m].inBulk)) fun m s => s.mcAbandon m n.val
  if n.val = 7 then s.mezzDown else s

/-- DRAIN_TIMEOUT (R453). -/
def execDrainTimeout (n : Fin 32) (s : State) : Res := liveR s fun s =>
  if s.dom n.val ≠ .draining ∨ s.drained n then s
  else ((s.fenceDrain n).domainOff n).report 0x1A 0 0xBD 0 (toW n.val)

/-- DOMAIN_UP (R450): a Comb's ports stay as they are until its calibration ends (R455). -/
def execDomainUp (n : Fin 32) (s : State) : Res := liveR s fun s =>
  if s.dom n.val = .rising then { s with fan := { s.fan with dom := s.fan.dom.set n .on } } else s

/-- A move program that has not ended names an address in the domain. -/
def State.movesName (s : State) (n : Nat) : Bool :=
  s.mcs.any fun x => x.state != .idle && x.state != .check && x.inDomain n

/-- AUTO_GATE (R456): a cluster long idle goes down; SCOUT and BULK go down or up after 1,024 passes. -/
def execAutoGate (n : Fin 32) (s : State) : Res := liveR s fun s =>
  let f := s.fan
  let down (s : State) : State := ({ s with fan := { s.fan with auto := s.fan.auto ||| (1#32 <<< n.val) } } : State).drain n
  let goesDown :=
    if 1 ≤ n.val ∧ n.val ≤ 4 then
      f.autoGate && (s.chans.all fun x => !x.bind.bound || (clusterOf x.bind.core).val + 1 != n.val || decide (256 ≤ x.idleN)) && !s.movesName n.val
    else if n.val = 5 then decide (1024 ≤ f.passN.1)
    else if n.val = 6 then decide (1024 ≤ f.passN.2.1) else false
  let goesUp := if n.val = 5 then decide (1024 ≤ f.passN.2.2.1) else if n.val = 6 then decide (1024 ≤ f.passN.2.2.2) else false
  if s.dom n.val = .on ∧ goesDown then down s
  else if s.dom n.val = .off ∧ f.auto.getLsbD n.val ∧ goesUp then s.domainUp n
  else s

end Sys2Proof.Machine
end

