-- ==== Sys2Proof/Machine/Cast.lean ====
section
/-! DEFINITION. Cast-on (chapter 17): power-up, the choice of the running image, the bring-up of each function, the policy hooks. -/

namespace Sys2Proof.Machine

/-! ### Power-up (R441, R501) -/

/-- The state that a start of the mains unit leaves: cold reset, but for what needs no power to stay: flash, keys, ledger, link relays,
LAST_OFF, what stands outside (R144, R441, R484, R501, R504). A thermal trip or a primary overvoltage is reported as the module comes back. -/
def State.coldStart (s : State) : State :=
  let c := s.cast
  let g := s.gauge
  let p := s.psu
  let z := State.reset
  let s' := { z with
    pending := s.pending, out := s.out, lastRead := s.lastRead, free := s.free
    cast := { z.cast with keys := c.keys, slotA := c.slotA, slotB := c.slotB, recA := c.recA, recB := c.recB, nrec := c.nrec }
    gauge := { z.gauge with copy0 := g.copy0, copy1 := g.copy1, pos := g.pos, wear := g.wear }
    psu := { z.psu with lastOff := p.lastOff, mainsOk := p.mainsOk, vin := p.vin, vbus := p.vbus, pout := p.pout, steady := p.steady }
    prop := { z.prop with strap := s.prop.strap }
    mezz := { z.mezz with fitted := s.mezz.fitted }
    pairs := s.pairs.map fun x : Pair => { link := x.link } }
  match p.lastOff with
  | 2 => s'.report 0x18 0 0xBB 0 0
  | 3 => s'.report 0x18 0 0xB1 0 0
  | _ => s'

/-- POWER_UP (R441, R488): the mains unit starts again after a power-off. -/
def execPowerUp (s : State) : Res := .next (if s.psu.bind = .off then s.coldStart else s)

/-! ### The running image (R486, R490) -/

/-- The slots that are candidates, the higher SEQ first (R486). -/
def State.candidates (s : State) : List Bool :=
  match s.cast.newest with
  | some b => b :: (if ((s.slotRec (!b)).map CRec.commit).getD false then [!b] else [])
  | none => []

/-- The verification cause of a slot is recorded (R483). -/
def State.setCause (s : State) (b : Bool) (cause : Nat) : State :=
  { s with cast := if b then { s.cast with causeB := cause } else { s.cast with causeA := cause } }

/-- The first candidate that verifies, with its bytes; each cause is recorded (R483, R486). -/
def State.verifySlots (s : State) : List Bool → Bool → Option (Bool × List Byte) × State
  | [], _ => (none, s)
  | b :: l, norError =>
    let len := Nat.min (((s.slotRec b).map CRec.len).getD 0) slotSize
    let bytes := Memory.read (s.cast.slot b) 0 len
    let digest := ((s.slotRec b).map CRec.digest).getD []
    let cause := verifyCause s.cast.keys bytes len (imgDigest bytes len == digest) (!norError)
    let s := s.setCause b cause
    if cause = 0 then (some (b, bytes), s) else State.verifySlots s l false

/-! ### Image settings (R478, R479, R504) -/

/-- The image's value of a register in a record section: that of its last record. -/
def imgValue (b : List Byte) (type ofs : Nat) : Option Word := (((imgRecords b type).filter fun r => r.1 == ofs).getLast?).map (·.2)

/-- The policy registers of Propolis and Fanning at their cold-reset values. -/
def State.coldPolicy (s : State) : State :=
  let z := State.reset
  { s with
    prop := { s.prop with quiet := z.prop.quiet, irqMin := z.prop.irqMin, degPrio := z.prop.degPrio, cmap := [] }
    fan := { s.fan with gTh := z.fan.gTh, gThC := z.fan.gThC, drainLim := z.fan.drainLim, autoGate := z.fan.autoGate, floor := z.fan.floor
                        combHot := z.fan.combHot, tSoft := z.fan.tSoft, curve := z.fan.curve } }

/-- The policy registers of Gauge at their cold-reset values. -/
def State.coldGaugePolicy (s : State) : State :=
  let z := State.reset
  let s := { s with gauge := { s.gauge with capInt := z.gauge.capInt, calBase := z.gauge.calBase, capEn := z.gauge.capEn, lifeWarn := z.gauge.lifeWarn } }
  s.each (allFin 16) fun c s => s.calInterval c

/-- The image's frame period, and its TICK_CTRL; cold-reset values where it names none (R478). -/
def imgPeriod (b : List Byte) : Word := (imgValue b 8 0x1004).getD 0x02001E84
def imgTickCtrl (b : List Byte) : Word := (imgValue b 8 0x1000).getD 0

/-- A record concerns a move channel context. -/
def isMoveRec (o : Nat) : Bool := decide (0x200000 ≤ o) && decide (o < 0x201000)

/-- The unlocked rules and E-stop settings give way to those of the image (R377, R503, Table 12-9): a rule's hold ends. -/
def State.reloadReflex (s : State) (b : List Byte) : State :=
  let s := s.each ((allFin 512).filter fun r => !s.rules[r].lock) fun r s => (s.endHold r).modRule r fun x => { fires := x.fires }
  let s := if s.rx.cfgLock then s else { s with rx := { s.rx with deMask := 0xF, discMs := 100, filt := 1000 } }
  s.writeRecords b 6 fun _ => true

/-- The registers that the image marks locked (R377). -/
def imgLocks (b : List Byte) : List Nat :=
  (imgRecords b 6).filterMap (fun r => (recordReg 6 r.1).bind fun x => if x.2 then some x.1 else none) ++
    (imgRecords b 4).filterMap (fun r => (recordReg 4 r.1).bind fun x => if x.2 then some x.1 else none)

/-- The registers that are locked. -/
def State.locks (s : State) : List Nat :=
  ((allFin 512).filter fun r => s.rules[r].lock).map (fun r => 0x400000 + r.val * 0x20) ++
    ((allFin 128).filter fun p => s.ports[p].safeLock).map (fun p => portAddr p 0x74) ++ (if s.rx.cfgLock then [0x700C] else [])

/-- Both lists name the same registers. -/
def sameSet (a b : List Nat) : Bool := a.all b.contains && b.all a.contains

/-- A block of the NEEDLE section goes into the cores of its mask (R480). -/
def State.loadBlock (s : State) (x : NBlock) : State :=
  match x with
  | .code m i bytes => s.each (maskCores m) fun k s => s.modCore k fun c => { c with isram := Memory.write c.isram i bytes }
  | .slot m n t e => s.each (maskCores m) fun k s => s.modCore k fun c =>
      { c with slots := c.slots.set (n % 32) { valid := true, timed := t == 1, entry := toW e } (Nat.mod_lt _ (by decide)) }

/-! ### IMAGE_VERIFIED (R377, R486, R488, R490, R493) -/

/-- No slot verifies (R490). -/
def State.noImageFound (s : State) : State :=
  { s with
    ports := s.ports.map Port.cold
    cast := { s.cast with noImage := true, run := none, next := s.cast.newest, image := [], flags := 0b111, restarting := false } }

/-- A slot verifies: it runs, and its factory values and flags stand (R481, R486). -/
def State.takeImage (s : State) (slot : Bool) (b : List Byte) : State :=
  let f := imgSec b 2
  let g := { s.gauge with fact := Vector.ofFn fun p => leAt f (88 + 2 * p.val) 2 }
  let ratio := ((newestEntry (if g.recovered then g.copy1 else g.copy0)).map LEntry.ron).getD []
  { s with
    glb := { s.glb with image := true }
    gauge := { g with ron := Vector.ofFn fun p => if g.ron[p] = 0 then ratio.getD p.val 0 * g.fact[p] / 64 else g.ron[p] }
    combs := s.combs.mapFinIdx fun c (x : Comb) _ => { x with zener := toW (leAt f (24 + 4 * c) 4) }
    cast := { s.cast with
      run := some slot, next := s.cast.newest, fallback := decide (s.cast.newest ≠ some slot), noImage := false, image := b
      flags := BitVec.ofNat 3 (leAt b 18 2) } }

/-- POLICY and TICK records: at a restart Gauge keeps its settings and the tick its role (R503, R504). -/
def State.applyPolicy (s : State) (b : List Byte) (restart : Bool) : State :=
  let s := { s.coldPolicy with psu := { s.psu with margin := 0 } }
  let s := s.writeRecords b 9 fun o => !(restart && (o == 0xA000 || o == 0xA018))
  let v := imgTickCtrl b
  let s := if restart then { s.wrTickCtrl v with cast := { s.cast with rolePend := decide (fld v 1 0 ≠ s.tick.role.code) } } else s.castTickCtrl v
  s.wrTickPeriod (imgPeriod b)

/-- The tick starts in a standalone module or a master, and with it the time base: its first edge, with its message (R40, R49, R54). -/
def State.startTick (s : State) : State :=
  if s.glb.tick ∨ s.tick.role = .follower then s
  else
    let t := s.tick
    State.sendTick { s with
      glb := { s.glb with tick := true }
      tick := { t with started := true, now := 0, edge := 0, ofs := 0, act := t.period, acc := fld t.period 25 18, len := fld t.period 17 0, slew := 0
                       phase := .edge, pend := none } }

/-- NEEDLE and CHANNELS, and the cluster bits; the settings of move channels too where local memory is ready (Table 17-6). -/
def State.applyPrograms (s : State) (b : List Byte) : State :=
  let s := s.each (imgBlocks b) fun x s => s.loadBlock x
  let s := s.writeRecords b 7 fun o => s.glb.move || !isMoveRec o
  { s with glb := { s.glb with ncl := 0xF } }

/-- REFLEX: rules written and locked, the matrix armed (R377, R503). -/
def State.applyReflex (s : State) (b : List Byte) (restart : Bool) : State :=
  let pend := restart && !sameSet s.locks (imgLocks b)
  let s := s.reloadReflex b
  ({ s with rx := { s.rx with armed := true }, glb := { s.glb with reflex := true }, cast := { s.cast with lockPend := pend } } : State).startedSince s

/-- An image's settings, from IMAGE to the Reflex bit. That the REFLEX bit stands already tells a restart (Table 17-7). -/
def State.castImage (s : State) (slot : Bool) (b : List Byte) (h : HookWrites) : State :=
  let restart := s.glb.reflex
  let s := (s.takeImage slot b).applyPolicy b restart
  let s := s.startTick.hook .all h
  ((s.applyPrograms b).applyReflex b restart).noteBoot

/-- IMAGE_VERIFIED (R486). -/
def execImageVerified (norError : Bool) (h : HookWrites) (s : State) : Res := liveR s fun s =>
  if s.glb.image ∨ !s.cast.booting ∨ s.cast.noImage ∨ s.psu.bind ≠ .none then s
  else match s.verifySlots s.candidates norError with
    | (some (slot, b), s) => s.castImage slot b h
    | (none, s) => s.noImageFound.reholdAll

/-! ### Calibration and the Combs (R94, R95, R144, R163) -/

/-- START_UP_CALIBRATION: the link relays are set and every cell stands in IDLE (R94, R144). The rank-1 safe states of a restart end (R503). -/
def execStartUpCalibration (s : State) : Res := liveR s fun s =>
  if !s.glb.image ∨ !s.cast.booting ∨ s.psu.bind ≠ .none then s
  else
    let b := s.cast.image
    { s with
      cast := { s.cast with booting := false, restarting := false, calib := 0xFFFF }
      ports := s.ports.map Port.cold
      combs := s.combs.map fun x : Comb => { zener := x.zener }
      pairs := s.pairs.mapFinIdx fun j (x : Pair) hj => { link := bit (imgGraft b ⟨j, hj⟩) 7, auxOpen := x.auxOpen } }

/-- The result of a cell's start-up calibration; a failure is recorded and reported (R91, R95). -/
def State.takeCell (s : State) (c : CombIx) (x : CellCal) : State :=
  let p : PortIx := finOf 128 (8 * c.val + x.cell.val)
  let s := s.modPort p fun y => { y with st := { y.st with cal := x.sets, calFail := x.fail, cellFail := x.fail } }
  if x.fail then s.portFault p 0x06 0 s.now 0x06 else s

/-- What is written at a port is in force at once (R94). -/
def State.settingsInForce (s : State) (p : PortIx) : State :=
  s.modPort p fun x =>
    { x with a := { x.a with mode := x.r.mode, range := x.r.range, limits := x.r.limits, loadRef := x.r.loadRef, scoutTol := x.r.scoutTol, change := none }
             st := { x.st with learn := if bit x.r.loadRef 8 then some (0, 0) else none, learnAt := s.tick.frames } }

/-- SIG and DIR of a pair as the graft map has them (R163). -/
def State.loadGraft (s : State) (j : PairIx) : State :=
  let g := imgGraft s.cast.image j
  s.modPort (upPort j) fun x => { x with r := { x.r with graft := (x.r.graft &&& 0xFFFFFF87) ||| (g &&& 0x78) } }

/-- The pairs of a Comb. -/
def pairsOf (c : CombIx) : List PairIx := (List.range 4).map fun i => finOf 64 (4 * c.val + i)

/-- The image's port settings take effect and the start modes are requested (R94, R163). -/
def State.applyPorts (s : State) (c : CombIx) : State :=
  let lo := 0x1000000 + c.val * 0x10000
  let s := s.writeRecords s.cast.image 4 fun o => decide (lo ≤ o) && decide (o < lo + 0x10000)
  let s := s.each (pairsOf c) fun j s => s.loadGraft j
  let s := s.each (portsOf c) fun p s => (s.settingsInForce p).startMode p
  let s := s.regroup c
  s.each ((pairsOf c).filter fun j => s.pairs[j].link) fun j s => s.gRequest j (imgGraft s.cast.image j &&& 0x7F)

/-- COMB_READY (R94, R95, R455): after Cast-on the image's settings, after a power-up of the domain alone the cold-reset values; at a tick
edge. -/
def execCombReady (c : CombIx) (cells : List CellCal) (s : State) : Res := liveR s fun s =>
  if !s.glb.image ∨ !s.glb.tick ∨ s.dom (16 + c.val) ≠ .on ∨ s.combReady c ∨ s.cast.booting ∨ s.psu.bind ≠ .none ∨ s.tick.phase ≠ .edge then s
  else
    let boot := s.cast.calib.getLsbD c.val
    let old := s
    let s := { s with
      glb := { s.glb with comb := s.glb.comb ||| (1#16 <<< c.val) }
      gauge := { s.gauge with calAt := s.gauge.calAt.set c s.gauge.pon } }
    let s := s.each cells fun x s => s.takeCell c x
    let s := if boot then (({ s with cast := { s.cast with calib := s.cast.calib &&& ~~~(1#16 <<< c.val) } } : State).applyPorts c).noteBoot else s
    s.startedSince old

/-- LOCAL_MEMORY_INITIALISED (R491, Table 17-6). -/
def execLocalMemoryInitialised (s : State) : Res := live s fun s =>
  if s.glb.move ∨ (s.cast.restarting ∧ !s.cast.booting) ∨ s.psu.bind ≠ .none then s
  else
    let s := s.writeRecords s.cast.image 7 isMoveRec
    State.noteBoot { s with glb := { s.glb with move := true } }

/-! ### Policy hooks (R493, R494) -/

/-- ON_PERIOD (R493). -/
def execOnPeriod (h : HookWrites) (s : State) : Res := live s fun s => s.hook .fan h

/-- FW_HALT (R494). -/
def execFwHalt (s : State) : Res := live s fun s => if s.firmware then { s with cast := { s.cast with fwHalt := true } } else s

end Sys2Proof.Machine
end

