-- ==== Sys2Proof/Machine/Restart.lean ====
section
/-! DEFINITION. Restart and warm reset (R501 to R505, R522, R523). -/

namespace Sys2Proof.Machine

/-- Every domain comes up and no power-down is requested (R504, note to Table 15-8); the fan's follows its duty (R457). -/
def State.domainsUp (s : State) : State :=
  { s with fan := { s.fan with
      req := 0, auto := 0
      dom := s.fan.dom.mapFinIdx fun i d _ => if i = 8 then d else match d with | .off => .rising | .draining => .on | d => d } }

/-! ### Restart (R503) -/

/-- Propolis at a restart: reactions of classes 1 to 4 end and slots empty; log, counters and grave operation stay (Table 17-13). -/
def State.restartProp (s : State) : State :=
  let p := s.prop
  { s with prop := { p with
      degraded := false, units := p.units.map fun x => { x with slots := [], cls := 0, level := [] }, open4 := []
      fences := if p.grave then p.fences.filter (·.2 == none) else [] } }

/-- Channels, move channels and cores go cold; their memories stay (Tables 17-13, 18-11). Grave operation keeps its fences (R420). -/
def State.coldWork (s : State) : State :=
  { s with
    chans := Vector.replicate 256 { state := if s.prop.grave then .fenced else .idle }
    mcs := Vector.replicate 64 { fenced := s.prop.grave }
    cores := s.cores.map fun x : Core => { isram := x.isram, dsram := x.dsram, diag := x.diag }
    blk := {}
    mezz := { s.mezz with bus := none, rel := none } }

/-- A restart at R+0 (R503). -/
def State.restart (s : State) : State :=
  let s := { s with cast := { s.cast with restarting := true } }
  let s := ((s.hostReset.releaseAll).openDe 0xF).restartProp.coldWork.coldPolicy.domainsUp
  let c := s.cast
  let s := { s with
    glb := { s.glb with image := false, move := false, ncl := 0, comb := 0 }
    cast := { c with
      restarting := true, booting := false, calib := 0, owner := .none, staged := [], run := none, image := [], flags := 0b111, fallback := false
      noImage := false, fwHalt := false, bootAt := if s.tick.started then Nat.max 1 s.now else 0 } }
  s.dropHolds.reholdAll

/-- RESTART_CAST_ON, R+12 ms (R503). -/
def execRestartCastOn (s : State) : Res := live s fun s =>
  if !s.cast.restarting ∨ s.psu.bind ≠ .none then s else { s with cast := { s.cast with booting := true, next := s.cast.newest } }

/-! ### Warm reset (R504, R522) -/

/-- A section's records act on the settings of channels and move channels whatever their state (notes to R206 and R324). -/
def State.reloadPrograms (s : State) : State :=
  let cs := s.chans
  let ms := s.mcs
  let s := { s with chans := cs.map fun x : Chan => { x with state := .idle }, mcs := ms.map fun x : Mc => { x with state := .idle } }
  let s := s.writeRecords s.cast.image 7 fun _ => true
  { s with chans := s.chans.mapFinIdx fun i (x : Chan) hi => { x with state := cs[i].state }
           mcs := s.mcs.mapFinIdx fun i (x : Mc) hi => { x with state := ms[i].state } }

/-- The registers that the image gives each port, cold-reset values where it names none (Table 18-10). -/
def State.imagePorts (s : State) : Vector Port 128 :=
  (({ s with
    ports := s.ports.map fun x : Port => { st := { cellFail := x.st.cellFail } }
    pairs := Vector.replicate 64 {}
    glb := { s.glb with comb := 0xFFFF } } : State).writeRecords s.cast.image 4 fun _ => true).ports

/-- A port takes the image's settings; its locked safe state stays (R377, Table 18-10). -/
def State.reloadPort (s : State) (p : PortIx) (n : PortRegs) : State :=
  let r := s.ports[p].r
  let same := decide (r.mode = n.mode ∧ r.range = n.range ∧ r.limits = n.limits ∧ r.loadRef = n.loadRef ∧ r.scoutTol = n.scoutTol)
  let s := s.modPort p fun x =>
    { x with r := { x.r with mode := n.mode, range := n.range, limits := n.limits, loadRef := n.loadRef, scoutTol := n.scoutTol
                             safe := if x.safeLock then x.r.safe else n.safe }
             a := { x.a with wrote := if same then x.a.wrote else s.tick.frames } }
  s.rehold p

/-- A pair that is not in BYPASS is released where the reset changes the MODE of one of its ports; the changeover waits for BYPASS. A pair in
BYPASS takes SIG and DIR of the graft map (R162, R163). -/
def State.reloadPair (s : State) (j : PairIx) (was : Vector Port 128) : State :=
  let change (p : PortIx) : Bool := fld was[p].r.mode 5 0 != fld s.ports[p].r.mode 5 0
  if !s.pairs[j].link ∨ s.pairs[j].mode = .bypass then s.loadGraft j
  else if change (upPort j) || change (dnPort j) then (s.releasePair j).modPair j fun x => { x with warmWait := true }
  else s

/-- The ports and pairs of a ready Comb at a warm reset. -/
def State.reloadComb (s : State) (c : CombIx) (img : Vector Port 128) : State :=
  if !s.combReady c then s
  else
    let was := s.ports
    let s := s.each (portsOf c) fun p s => s.reloadPort p img[p].r
    s.each (pairsOf c) fun j s => s.reloadPair j was

/-- A warm reset (R504, Table 17-13, the notes of each chapter), with the writes of its ON_START run. The reload of TICK_PERIOD pends for
eight edges as an accepted write does, also where it changes nothing (DESIGN CHOICE, log entry 103). -/
def State.warm (s : State) (h : HookWrites) : State :=
  let b := s.cast.image
  let s := s.hostReset.domainsUp.reloadPrograms
  let s := s.coldPolicy.coldGaugePolicy.writeRecords b 9 fun o => o != 0xC014
  let s := (s.wrTickCtrl (imgTickCtrl b &&& 0xF)).wrTickPeriod (imgPeriod b)
  let img := s.imagePorts
  let s := s.each (allFin 16) fun c s => s.reloadComb c img
  (s.reloadReflex b).hook .all h

/-! ### GLB_RST (R502) -/

/-- A write of GLB_RST (Table 17-12); bit 8 of one that is not discarded clears REJ (R7); `h` holds the writes of an ON_START run. -/
def State.wrGlbRst (s : State) (v : Word) (h : HookWrites) : State :=
  if !bit v 1 ∧ !bit v 0 then { s with cast := { s.cast with rstRej := s.cast.rstRej && !bit v 8 } }
  else if fld v 31 24 = 0xC3 ∧ bit v 1 ≠ bit v 0 ∧ !s.cast.restarting ∧ s.psu.bind = .none then
    let s := { s with cast := { s.cast with rstRej := s.cast.rstRej && !bit v 8 } }
    if bit v 1 then s.restart else s.warm h
  else { s with cast := { s.cast with rstRej := true } }

/-- RESTART (R502, R503). -/
def execRestart (_a : Agent) (v : Word) (s : State) : Res := liveR s fun s => s.wrGlbRst v []

/-- WARM (R502, R504). -/
def execWarm (_a : Agent) (v : Word) (h : HookWrites) (s : State) : Res := liveR s fun s => s.wrGlbRst v h

end Sys2Proof.Machine
end

