-- ==== Sys2Proof/Machine/Logs.lean ====
section
/-! DEFINITION. The logs of GET_LOG (R358, R428, R507), the service port (R500), and a loss of all supplies without warning (R165, R499). -/

namespace Sys2Proof.Machine

/-! ### Logs (R358) -/

/-- A core's entry of the DIAG log (R428). -/
def Core.diagBytes (x : Core) (k : Nat) : List Byte :=
  let t := x.diag.2.2
  leBytes 8 x.diag.1 ++ leBytes 1 x.diag.2.1 ++ zeros 3 ++ leBytes 4 (put t.code 8 + t.cause) ++ leBytes 4 t.etpc.toNat ++ leBytes 4 t.erpc.toNat ++
    leBytes 4 t.ebad.toNat ++ leBytes 4 t.einstr.toNat ++ leBytes 4 (putb t.rpt 3 + putb t.plact 2 + putb t.ds 1 + putb t.inTrap 0) ++
    leBytes 1 k ++ leBytes 1 (putb x.fenced 0) ++ zeros 26

/-- The DIAG log (R428). -/
def State.diagLog (s : State) : List Byte := (allFin 16).flatMap fun k => s.cores[k].diagBytes k.val

/-- The bytes of a commit record (Table 17-5). -/
def CRec.bytes (r : CRec) (slot : Bool) : List Byte :=
  let b := ascii "SLVC" ++ leBytes 4 r.seq ++ leBytes 1 (if r.commit then 1 else 2) ++ leBytes 1 (putb slot 0) ++ zeros 2 ++ leBytes 4 r.len ++
    (r.digest ++ zeros 32).take 32 ++ zeros 12
  b ++ leBytes 4 (crc32c b).toNat

/-- The newest commit record of a slot, as the IMAGE log shows it; zero where there is none. -/
def State.recBytes (s : State) (b : Bool) : List Byte := ((s.slotRec b).map fun r => r.bytes b).getD (zeros 64)

/-- The factory block of the image in a slot, if it passes its check (R481, R507). -/
def State.slotFactory (s : State) (b : Bool) : Option (List Byte) :=
  let m := s.cast.slot b
  match (imgTable (Memory.read m 0 768)).find? (·.type == 2) with
  | some e => let f := Memory.read m e.ofs 512; if factoryOk f then some f else none
  | none => none

/-- The factory block of the IMAGE log (R507): the slots in the order of their newest records. -/
def State.factoryBlock (s : State) : List Byte :=
  if s.cast.run.isSome then imgSec s.cast.image 2
  else
    let newer := decide (((s.slotRec false).map CRec.seq).getD 0 < ((s.slotRec true).map CRec.seq).getD 0)
    (([newer, !newer].filterMap s.slotFactory).head?).getD (zeros 512)

/-- The IMAGE log (R507). -/
def State.imageLog (s : State) : List Byte :=
  (List.range 8).flatMap (fun i => leBytes 4 (s.castonPeek (0xB000 + 4 * i)).toNat) ++ zeros 32 ++ s.recBytes false ++ s.recBytes true ++ zeros 64 ++
    s.factoryBlock ++ zeros 256

/-- The log of a LID (Table 11-11). -/
def State.logOf (s : State) (lid : Nat) : List Byte :=
  match lid with
  | 1 => s.faultLog
  | 2 => s.gauge.log
  | 3 => s.diagLog
  | _ => s.imageLog

/-- The part of a log that a request names (R358). -/
def logPart (l : List Byte) (ofs len : Nat) : List Byte := (l.drop ofs).take len

/-- GET_LOG (R358): LEDGER needs the Gauge bit (Table 11-11). -/
def execGetLog (linkRefused : Option Nat) (s : State) : Res := live s fun s => s.takeAdm 0x87 fun c s =>
  if c.at_ 16 1 = 2 ∧ !s.glb.gauge then s.invalid c 0x04 4
  else
    let b := logPart (s.logOf (c.at_ 16 1)) (c.at_ 20 4) (c.at_ 24 4)
    if b.isEmpty then s.complete c stOk 0 0 else s.adminWrite c b linkRefused

/-! ### The service port (R500) -/

/-- A reply: STATUS, DETAIL and RESULT as bytes 8 to 15 of a completion record with CID 0, in 16 bytes, and the data (R500). -/
def usbReply (status detail result : Nat) (data : List Byte) : Emit :=
  .usb (zeros 2 ++ leBytes 1 status ++ leBytes 1 detail ++ leBytes 4 result ++ zeros 8 ++ data)

/-- Offsets of a request's bytes that must be zero and are not, and a reserved LID (R337, R500). -/
def usbReserved (q : List Byte) : List Nat :=
  ([1, 2, 3] ++ (List.range 19).map (· + 13)).filter (fun i => leAt q i 1 != 0) ++
    (if leAt q 0 1 = 0x87 ∧ (leAt q 12 1 = 0 ∨ 4 < leAt q 12 1) then [12] else [])

/-- Offsets of a request's fields outside their range (R358, R360). -/
def usbRanges (q : List Byte) : List Nat :=
  let ofs := leAt q 4 4
  let len := leAt q 8 4
  match leAt q 0 1 with
  | 0x87 => (if ofs % 4 ≠ 0 then [4] else []) ++ (if len % 4 ≠ 0 ∨ len < 4 ∨ 1048576 < len then [8] else [])
  | 0x8A => (if ofs % 4096 ≠ 0 ∨ slotSize < ofs + len then [4] else []) ++ (if len % 4096 ≠ 0 ∨ len < 4096 ∨ 1048576 < len then [8] else [])
  | _ => []

/-- What a request is refused with at once: cause and RESULT, in the order of R337. -/
def State.usbRefused (s : State) (q : List Byte) : Option (Nat × Nat) :=
  let opc := leAt q 0 1
  if !([0x80, 0x87, 0x8A, 0x8B].contains opc) then some (0x01, 0)
  else match lowest (usbReserved q) with
    | some o => some (0x02, o)
    | none => match lowest (usbRanges q) with
      | some o => some (0x03, o)
      | none =>
        if opc = 0x87 ∧ leAt q 12 1 = 2 ∧ !s.glb.gauge then some (0x04, 4)
        else if opc = 0x8A ∨ opc = 0x8B then
          match s.imageRefused .usb with
          | some c => some (c, 0)
          | none => if opc = 0x8A ∧ (stageList (leAt q 4 4) (leAt q 8 4)).any s.cast.staged.contains then some (0x03, 4) else none
        else none

/-- IMAGE_COMMIT through the service port: the session ends with it (R495, R497). -/
def State.usbCommit (s : State) (len : Nat) : State :=
  let key := s.commitKey len
  let (cause, s) := s.commit len
  let s := match cause, key with
    | 0, some k => s.enrol k
    | _, _ => s
  let seq := ((s.slotRec s.cast.stageSlot).map CRec.seq).getD 0
  let s := { s with cast := { s.cast with owner := .none, staged := [] } }
  s.emit (if cause = 0 then usbReply stOk 0 seq [] else usbReply 0x30 0x08 cause [])

/-- A request that nothing refuses is carried out (R500). -/
def State.usbRun (s : State) (q payload : List Byte) : State :=
  match leAt q 0 1 with
  | 0x80 => s.emit (usbReply stOk 0 0 s.identity)
  | 0x87 => let b := logPart (s.logOf (leAt q 12 1)) (leAt q 4 4) (leAt q 8 4); s.emit (usbReply stOk 0 b.length b)
  | 0x8A => (s.stage .usb (leAt q 4 4) payload).emit (usbReply stOk 0 0 [])
  | _ => s.usbCommit (leAt q 8 4)

/-- The payload that follows a request: LEN bytes for an IMAGE_STAGE that is carried out, whatever the host sends otherwise. -/
def usbPayloadOk (q payload : List Byte) : Bool := leAt q 0 1 != 0x8A || payload.length == leAt q 8 4

/-- USB_REQUEST (R500). With USB_EN clear the port is not connected; from B+0 no flash is written (R440). -/
def execUsbRequest (req payload : List Byte) (s : State) : Res :=
  if s.psu.bind = .off ∨ !s.cast.flags.getLsbD 1 then .next s
  else if req.length ≠ 32 then .fault (.malformed "USB_REQUEST")
  else match s.usbRefused req with
    | some (cause, res) => .next (s.emit (usbReply 0x30 cause res []))
    | none =>
      if (leAt req 0 1 = 0x8A ∨ leAt req 0 1 = 0x8B) ∧ s.psu.bind ≠ .none then .next s
      else if usbPayloadOk req payload then .next (s.usbRun req payload)
      else .fault (.malformed "USB_REQUEST")

/-- USB_BUS_RESET: a bus reset or a detach (R495). -/
def execUsbBusReset (s : State) : Res := live s fun s =>
  if s.cast.owner = .usb then { s with cast := { s.cast with owner := .none, staged := [] } } else s

/-! ### Loss of the supplies without warning (R165, R499) -/

/-- The record that the image command under way writes is torn and does not count: flash stands as before the command (R485, R499). -/
def State.tear (s : State) : State :=
  match s.cast.before with
  | some b => { s with cast := { s.cast.setNor b with before := none }, hq := { s.hq with image := none } }
  | none => s

/-- LOSS_WITHOUT_WARNING (R165, R499): coils fall, contacts close, outputs float; a record being written may be torn. -/
def execLossWithoutWarning (torn : Bool) (s : State) : Res := live s fun s =>
  let s := (if torn then s.tear else s).cutImage.cutCommit
  let s := s.each (allFin 128) fun p s => s.modPort p fun x => { x.floatPin s.now with o := { (x.floatPin s.now).o with held := .hiz } }
  { s with
    psu := { s.psu with bind := .off }
    pairs := s.pairs.map fun x : Pair => { x with coil := false, auxOpen := false, regen := false }
    rx := { s.rx with coil := 0, aux := 0 } }

end Sys2Proof.Machine
end

