-- ==== Sys2Proof/Machine/Pcie.lean ====
section
/-! DEFINITION. What the host reaches beside BAR0 and BAR2 (R325, R326, R329, R348): the MSI-X table and PBA in BAR4, and the configuration
space, its registers named and not addressed. The bits of both are those of PCI Express (log entry 102). -/

namespace Sys2Proof.Machine

/-! ### BAR4 (R326, R348) -/

/-- A doubleword of a table entry: address, upper address, data, vector control. -/
def Vec.peek (x : Vec) (i : Nat) : Word :=
  match i with
  | 0 => x.msg.extractLsb' 0 32
  | 1 => x.msg.extractLsb' 32 32
  | 2 => x.msg.extractLsb' 64 32
  | _ => toW (putb x.mask 0)

/-- A doubleword of BAR4: 513 entries of 16 B from 0, the PBA from 0x4000, 72 B. -/
def State.msixPeek (s : State) (o : Nat) : Word :=
  if o < 513 * 16 then (s.hq.vecs[(finOf 513 (o / 16) : VecIx)]).peek (o / 4 % 4)
  else if 0x4000 ≤ o ∧ o < 0x4048 then
    toW ((allFin 513).foldl (fun n v => if v.val / 32 = (o - 0x4000) / 4 ∧ s.hq.vecs[v].pba then n + 2 ^ (v.val % 32) else n) 0)
  else 0

/-- A write of a doubleword of a table entry; clearing the mask lets a pending message go (R348). -/
def State.msixWrite32 (s : State) (o : Nat) (v : Word) : State :=
  if 513 * 16 ≤ o then s
  else
    let n : VecIx := finOf 513 (o / 16)
    let m := s.hq.vecs[n].msg
    let put (m : BitVec 96) : State := s.modVec n fun x => { x with msg := m }
    match o / 4 % 4 with
    | 0 => put (m.extractLsb' 32 64 ++ (v &&& 0xFFFFFFFC))
    | 1 => put (m.extractLsb' 64 32 ++ v ++ m.extractLsb' 0 32)
    | 2 => put (v ++ m.extractLsb' 0 64)
    | _ => if bit v 0 then s.modVec n fun x => { x with mask := true } else s.unmask (some n)

/-- A write of BAR4, aligned and of 32 or 64 bits. -/
def State.msixWrite (s : State) (o width : Nat) (v : BitVec 64) : State :=
  if width = 32 ∧ o % 4 = 0 then s.msixWrite32 o (v.truncate 32)
  else if width = 64 ∧ o % 8 = 0 then (s.msixWrite32 o (v.truncate 32)).msixWrite32 (o + 4) (v.extractLsb' 32 32)
  else s

/-- A read of BAR4. -/
def State.msixRead (s : State) (o width : Nat) : BitVec 64 :=
  BitVec.ofNat 64 (((s.msixPeek (o / 4 * 4 + 4) ++ s.msixPeek (o / 4 * 4)).toNat / 2 ^ (8 * (o % 4))) % 2 ^ width)

/-! ### The configuration space (R325, R326, R329, R350) -/

/-- The address bits that a BAR implements (Table 11-2), and its type bits: 64 bits wide, BAR2 prefetchable. -/
def barMask (i : Fin 6) : Word := match i with | 0 => 0xFC000000 | 2 => 0xF0000000 | 4 => 0xFFFF8000 | _ => 0xFFFFFFFF
def barType (i : Fin 6) : Word := match i with | 0 => 0x4 | 2 => 0xC | 4 => 0x4 | _ => 0

/-- A configuration register as it reads. -/
def State.cfgPeek (s : State) (r : CfgReg) : Word :=
  let h := s.hq
  match r with
  | .classCode => 0x11800000
  | .bar i => h.bars[i] ||| barType i
  | .deviceControl => toW (put h.mps 5 + put h.mrrs 12)
  | .powerControl => toW ((if h.d3 then 3 else 0) + 8 + putb h.pmeEn 8 + putb h.pme 15)
  | .msixControl => toW (putb true 31 + putb h.fmask 30 + put 512 16)

/-- A write of the Device Control register: sizes that the function does not support leave the present ones. -/
def Hostq.setSizes (h : Hostq) (v : Word) : Hostq :=
  { h with mps := if fld v 7 5 ≤ 2 then fld v 7 5 else h.mps, mrrs := if fld v 14 12 ≤ 5 then fld v 14 12 else h.mrrs }

/-- A write of the power management register: PME_En, PME_Status, then the power state (R350). -/
def State.setPower (s : State) (v : Word) : State :=
  let s := { s with hq := { s.hq with pmeEn := bit v 8 } }
  let s := if bit v 15 then s.pmeClear else s
  match fld v 1 0, s.hq.d3 with
  | 3, false => s.toD3
  | 0, true => s.toD0
  | _, _ => s

/-- A write of the function mask (R348). -/
def State.setMask (s : State) (m : Bool) : State :=
  match m, s.hq.fmask with
  | true, _ => { s with hq := { s.hq with fmask := true } }
  | false, true => s.unmask none
  | false, false => s

/-- A 32-bit write of a configuration register. -/
def State.cfgWrite32 (s : State) (r : CfgReg) (v : Word) : State :=
  match r with
  | .classCode => s
  | .bar i => { s with hq := { s.hq with bars := s.hq.bars.set i (v &&& barMask i) } }
  | .deviceControl => { s with hq := s.hq.setSizes v }
  | .powerControl => s.setPower v
  | .msixControl => s.setMask (bit v 30)

/-- A write of some bytes of a configuration register: the others keep their value, and PME_Status, which a 1 clears, is not written. -/
def State.cfgWrite (s : State) (r : CfgReg) (ofs width v : Nat) : State :=
  let old := ((s.cfgPeek r) &&& (if r = .powerControl then 0xFFFF7FFF else 0xFFFFFFFF)).toNat
  let m := (2 ^ width - 1) * 2 ^ (8 * ofs)
  s.cfgWrite32 r (toW (old - (old &&& m) + (v * 2 ^ (8 * ofs) &&& m)))

end Sys2Proof.Machine
end

