-- ==== Sys2Proof/Machine/Regs.lean ====
section
/-! DEFINITION. Register accesses over BAR0 (R7 to R9, R327, R508 to R517) by each agent, and the reads that act. The value a read returns
stands in `lastRead` (log entry 11). -/

namespace Sys2Proof.Machine

/-- The agent reaches all of BAR0; the others reach the Comb region alone (R214, R299, R508). -/
def agentWide (a : Agent) : Bool := a == .host || a == .supervisor

/-- The core whose routine writes, where one does. -/
def agentCore (a : Agent) : Option CoreIx := match a with | .needle k => some k | _ => none

/-- The Comb region of BAR0 (Table 18-1). -/
def inCombs (addr : Nat) : Bool := decide (0x1000000 ≤ addr) && decide (addr < 0x1100000)

/-- One aligned 32-bit write (R513 to R515). -/
def State.write32 (s : State) (a : Agent) (addr : Nat) (v : Word) : State :=
  if inCombs addr then s.regionWrite (agentCore a) (addr - 0x1000000) v
  else if !agentWide a ∨ 0x1000000 ≤ addr then s
  else if addr = 0x0C then s.wrGlbRst v []
  else if addr = 0x9030 then s.wrDomReq v
  else if a = .supervisor ∧ Policy.all.ok addr then s.policyWrite addr v
  else s.blockWrite addr v

/-- An aligned word, without effects. -/
def State.peek32 (s : State) (a : Agent) (addr : Nat) : Word :=
  if inCombs addr then s.regionPeek a (addr - 0x1000000) else if !agentWide a ∨ 0x1000000 ≤ addr then 0 else s.blockPeek a addr

/-- One aligned 32-bit read, with its effects (R516). -/
def State.read32 (s : State) (a : Agent) (addr : Nat) : Word × State :=
  if inCombs addr then s.regionRead a (addr - 0x1000000)
  else if !agentWide a ∨ 0x1000000 ≤ addr then (0, s)
  else if addr = 0x7020 then let (w, s) := s.rxPop a true; (w.truncate 32, s)
  else (s.blockPeek a addr, s.blockReadEffect a addr)

/-- An access that BAR0 accepts: 32 bits, or 64 bits of the host or the Supervisor, naturally aligned (R214, R327). -/
def accOk (a : Agent) (addr width : Nat) : Bool :=
  (width == 32 && addr % 4 == 0) || (agentWide a && width == 64 && addr % 8 == 0)

/-- A value that a read returns. -/
def State.answer (s : State) (v : BitVec 64) : State := { s with lastRead := v }

/-- A 64-bit read of two registers, the lower address first (R327); a 64-bit pop register is read whole (R110, R384). -/
def State.read64 (s : State) (a : Agent) (addr : Nat) : BitVec 64 × State :=
  let pop : Option PortIx := if inCombs addr then (match combRegAt (addr - 0x1000000) with | .port p 0x40 => some p | _ => none) else none
  if addr = 0x7020 then s.rxPop a false
  else match pop with
    | some p => s.evqPop a p false
    | none =>
      let (lo, s) := s.read32 a addr
      let (hi, s) := s.read32 a (addr + 4)
      (hi ++ lo, s)

/-- The addressed bytes, without effects (R327). -/
def State.peekBytes (s : State) (a : Agent) (addr n : Nat) : Nat :=
  (List.range n).foldl (fun v i => v + put ((s.peek32 a ((addr + i) / 4 * 4)).toNat / 2 ^ (8 * ((addr + i) % 4)) % 256) (8 * i)) 0

/-- A read of any width (R327). -/
def State.readReg (s : State) (a : Agent) (addr width : Nat) : State :=
  if !accOk a addr width then s.answer (BitVec.ofNat 64 (s.peekBytes a addr (width / 8)))
  else if width = 32 then let (v, s) := s.read32 a addr; s.answer (v.zeroExtend 64)
  else let (v, s) := s.read64 a addr; s.answer v

/-- A write of any width (R327). -/
def State.writeReg (s : State) (a : Agent) (addr width : Nat) (v : BitVec 64) : State :=
  if !accOk a addr width then (if agentWide a then { s with hq := { s.hq with accRej := true } } else s)
  else if width = 32 then s.write32 a addr (v.truncate 32)
  else (s.write32 a addr (v.truncate 32)).write32 a (addr + 4) (v.extractLsb' 32 32)

/-- REGISTER_WRITE (R513). -/
def execRegisterWrite (a : Agent) (x : Place) (width : Nat) (v : BitVec 64) (s : State) : Res := liveR s fun s =>
  match x.sp with
  | .bar0 => s.writeReg a x.addr.toNat width v
  | .bar4 => s.msixWrite x.addr.toNat width v
  | .cfg r => s.cfgWrite r (x.addr.toNat % 4) width v.toNat

/-- RCLR_READ (R9). -/
def execRclrRead (a : Agent) (x : Place) (width : Nat) (s : State) : Res := live s fun s =>
  match x.sp with
  | .bar0 => s.readReg a x.addr.toNat width
  | .bar4 => s.answer (s.msixRead x.addr.toNat width)
  | .cfg r => s.answer (BitVec.ofNat 64 ((s.cfgPeek r).toNat / 2 ^ (8 * (x.addr.toNat % 4)) % 2 ^ width))

/-- TICK_NOW_LO, TICK_EDGE_LO (R51). -/
def execTickNowLo (a : Agent) (s : State) : Res := live s fun s => s.readReg a 0x1010 32
def execTickEdgeLo (a : Agent) (s : State) : Res := live s fun s => s.readReg a 0x1018 32

/-- PC_CNT_LO, PC_TS_LO (R142). -/
def execPcCntLo (a : Agent) (p : PortIx) (s : State) : Res := live s fun s => s.readReg a (portAddr p 0x30) 32
def execPcTsLo (a : Agent) (p : PortIx) (s : State) : Res := live s fun s => s.readReg a (portAddr p 0x38) 32

/-- PC_EVQ_POP (R110), REFLEX_EVQ_POP (R384). -/
def execPcEvqPop (a : Agent) (p : PortIx) (width : Nat) (s : State) : Res := live s fun s => s.readReg a (portAddr p 0x40) width
def execReflexEvqPop (a : Agent) (width : Nat) (s : State) : Res := live s fun s => s.readReg a 0x7020 width

end Sys2Proof.Machine
end

