-- ==== Sys2Proof/Machine/Mezz.lean ====
section
/-! DEFINITION. The mezzanine card's identify cycle and its removal (R520, R535). -/

namespace Sys2Proof.Machine

/-- IDENTIFY_CYCLE (R535): an answer DONE with a nonzero word identifies the card; any other, or none, is an error. -/
def execIdentifyCycle (answer : Option (BitVec 2 × Word)) (s : State) : Res := live s fun s =>
  if s.dom 7 = .off ∨ s.dom 7 = .draining ∨ s.psu.bind ≠ .none then s
  else
    let id : Word := match answer with
      | some (st, w) => if st = 0 ∧ s.mezz.fitted then w else 0
      | none => 0
    { s with mezz := { s.mezz with id := id, idOk := id != 0, idErr := id == 0 } }

/-- The cores held by a mezzanine instruction, with its word. -/
def State.mzHeld (s : State) : List (CoreIx × Word) :=
  (allFin 16).filterMap fun k => match s.cores[k].hold with
    | some (.mezz _ w _ _ _ _) => some (k, w)
    | _ => none

/-- CARD_REMOVAL (R535): domain 7 goes down without drain; the instructions that hold their cores raise MZ_DOWN, and MEZZ_ID is 0 with
FITTED (R520). -/
def execCardRemoval (s : State) : Res := liveR s fun s =>
  if s.dom 7 = .off ∨ !s.mezz.fitted then s
  else
    let held := s.mzHeld
    let s := { s with fan := { s.fan with dom := s.fan.dom.set 7 .off } }.mezzDown
    let s := { s with mezz := { s.mezz with fitted := false, id := 0 } }
    s.each held fun (k, w) s => s.mzTrap k w 0x09 0

/-- CARD_DETECT (R520): a card is fitted or taken out while domain 7 is down. -/
def execCardDetect (fitted : Bool) (s : State) : Res := live s fun s =>
  if s.dom 7 ≠ .off then s
  else { s with mezz := { s.mezz with fitted := fitted, id := if fitted then s.mezz.id else 0 } }

end Sys2Proof.Machine
end

