-- ==== Sys2Proof/Machine/Zalu.lean ====
section
/-! DEFINITION. The arithmetic and logic instructions of Zorath (R220), one meaning each. -/

namespace Sys2Proof.Machine

/-- ADD (R220): the sum. -/
def execAdd (k : CoreIx) (gd ga gb : BitVec 5) (s : State) : Res :=
  live s fun s => s.alu k (encRRR 0x01 gd ga gb 0) gd fun c => c.rd ga + c.rd gb

/-- SUB (R220): the difference. -/
def execSub (k : CoreIx) (gd ga gb : BitVec 5) (s : State) : Res :=
  live s fun s => s.alu k (encRRR 0x02 gd ga gb 0) gd fun c => c.rd ga - c.rd gb

/-- AND (R220): bitwise and. -/
def execAnd (k : CoreIx) (gd ga gb : BitVec 5) (s : State) : Res :=
  live s fun s => s.alu k (encRRR 0x03 gd ga gb 0) gd fun c => c.rd ga &&& c.rd gb

/-- OR (R220): bitwise or. -/
def execOr (k : CoreIx) (gd ga gb : BitVec 5) (s : State) : Res :=
  live s fun s => s.alu k (encRRR 0x04 gd ga gb 0) gd fun c => c.rd ga ||| c.rd gb

/-- XOR (R220): exclusive or. -/
def execXor (k : CoreIx) (gd ga gb : BitVec 5) (s : State) : Res :=
  live s fun s => s.alu k (encRRR 0x05 gd ga gb 0) gd fun c => c.rd ga ^^^ c.rd gb

/-- SLL (R220): shift left by g[gb] [4:0]. -/
def execSll (k : CoreIx) (gd ga gb : BitVec 5) (s : State) : Res :=
  live s fun s => s.alu k (encRRR 0x06 gd ga gb 0) gd fun c => c.rd ga <<< ((c.rd gb).toNat % 32)

/-- SRL (R220): logical shift right by g[gb] [4:0]. -/
def execSrl (k : CoreIx) (gd ga gb : BitVec 5) (s : State) : Res :=
  live s fun s => s.alu k (encRRR 0x07 gd ga gb 0) gd fun c => c.rd ga >>> ((c.rd gb).toNat % 32)

/-- SRA (R220): arithmetic shift right by g[gb] [4:0]. -/
def execSra (k : CoreIx) (gd ga gb : BitVec 5) (s : State) : Res :=
  live s fun s => s.alu k (encRRR 0x08 gd ga gb 0) gd fun c => (c.rd ga).sshiftRight ((c.rd gb).toNat % 32)

/-- MUL (R220): low half of the product, multiply class. -/
def execMul (k : CoreIx) (gd ga gb : BitVec 5) (s : State) : Res :=
  live s fun s => s.slow k (encRRR 0x09 gd ga gb 0) gd 2 fun c => c.rd ga * c.rd gb

/-- MULH (R220): high half of the signed product, multiply class. -/
def execMulh (k : CoreIx) (gd ga gb : BitVec 5) (s : State) : Res :=
  live s fun s => s.slow k (encRRR 0x0A gd ga gb 0) gd 2 fun c => mulHi (c.rd ga) (c.rd gb)

/-- MULHU (R220): high half of the unsigned product, multiply class. -/
def execMulhu (k : CoreIx) (gd ga gb : BitVec 5) (s : State) : Res :=
  live s fun s => s.slow k (encRRR 0x0B gd ga gb 0) gd 2 fun c => mulHiU (c.rd ga) (c.rd gb)

/-- SLT (R220): signed less. -/
def execSlt (k : CoreIx) (gd ga gb : BitVec 5) (s : State) : Res :=
  live s fun s => s.alu k (encRRR 0x0C gd ga gb 0) gd fun c => flag ((c.rd ga).slt (c.rd gb))

/-- SLTU (R220): unsigned less. -/
def execSltu (k : CoreIx) (gd ga gb : BitVec 5) (s : State) : Res :=
  live s fun s => s.alu k (encRRR 0x0D gd ga gb 0) gd fun c => flag ((c.rd ga).ult (c.rd gb))

/-- MIN (R220): signed minimum. -/
def execMin (k : CoreIx) (gd ga gb : BitVec 5) (s : State) : Res :=
  live s fun s => s.alu k (encRRR 0x0E gd ga gb 0) gd fun c => if (c.rd ga).slt (c.rd gb) then c.rd ga else c.rd gb

/-- MAX (R220): signed maximum. -/
def execMax (k : CoreIx) (gd ga gb : BitVec 5) (s : State) : Res :=
  live s fun s => s.alu k (encRRR 0x0F gd ga gb 0) gd fun c => if (c.rd gb).slt (c.rd ga) then c.rd ga else c.rd gb

/-- ADDS (R220): saturating sum. -/
def execAdds (k : CoreIx) (gd ga gb : BitVec 5) (s : State) : Res :=
  live s fun s => s.alu k (encRRR 0x10 gd ga gb 0) gd fun c => sat32 ((c.rd ga).toInt + (c.rd gb).toInt)

/-- SUBS (R220): saturating difference. -/
def execSubs (k : CoreIx) (gd ga gb : BitVec 5) (s : State) : Res :=
  live s fun s => s.alu k (encRRR 0x11 gd ga gb 0) gd fun c => sat32 ((c.rd ga).toInt - (c.rd gb).toInt)

/-- CLZ (R220): leading zeros, 32 for zero. -/
def execClz (k : CoreIx) (gd ga : BitVec 5) (s : State) : Res :=
  live s fun s => s.alu k (encRRR 0x12 gd ga 0 0) gd fun c => clz32 (c.rd ga)

/-- ABS (R220): saturating absolute value. -/
def execAbs (k : CoreIx) (gd ga : BitVec 5) (s : State) : Res :=
  live s fun s => s.alu k (encRRR 0x13 gd ga 0 0) gd fun c => sat32 (c.rd ga).toInt.natAbs

/-- ADDI (R220): sum with the sign-extended immediate. -/
def execAddi (k : CoreIx) (gd ga : BitVec 5) (imm : BitVec 15) (s : State) : Res :=
  live s fun s => s.alu k (encRRI 0x18 gd ga imm) gd fun c => c.rd ga + sx15 imm

/-- ANDI (R220): and with the zero-extended immediate. -/
def execAndi (k : CoreIx) (gd ga : BitVec 5) (imm : BitVec 15) (s : State) : Res :=
  live s fun s => s.alu k (encRRI 0x19 gd ga imm) gd fun c => c.rd ga &&& imm.zeroExtend 32

/-- ORI (R220): or with the zero-extended immediate. -/
def execOri (k : CoreIx) (gd ga : BitVec 5) (imm : BitVec 15) (s : State) : Res :=
  live s fun s => s.alu k (encRRI 0x1A gd ga imm) gd fun c => c.rd ga ||| imm.zeroExtend 32

/-- XORI (R220): exclusive or with the zero-extended immediate. -/
def execXori (k : CoreIx) (gd ga : BitVec 5) (imm : BitVec 15) (s : State) : Res :=
  live s fun s => s.alu k (encRRI 0x1B gd ga imm) gd fun c => c.rd ga ^^^ imm.zeroExtend 32

/-- SLTI (R220): signed less than the sign-extended immediate. -/
def execSlti (k : CoreIx) (gd ga : BitVec 5) (imm : BitVec 15) (s : State) : Res :=
  live s fun s => s.alu k (encRRI 0x1F gd ga imm) gd fun c => flag ((c.rd ga).slt (sx15 imm))

/-- SLLI (R220): shift left by the immediate. -/
def execSlli (k : CoreIx) (gd ga : BitVec 5) (sh : BitVec 5) (s : State) : Res :=
  live s fun s => s.alu k (encRRI 0x1C gd ga (sh.zeroExtend 15)) gd fun c => c.rd ga <<< sh.toNat

/-- SRLI (R220): logical shift right by the immediate. -/
def execSrli (k : CoreIx) (gd ga : BitVec 5) (sh : BitVec 5) (s : State) : Res :=
  live s fun s => s.alu k (encRRI 0x1D gd ga (sh.zeroExtend 15)) gd fun c => c.rd ga >>> sh.toNat

/-- SRAI (R220): arithmetic shift right by the immediate. -/
def execSrai (k : CoreIx) (gd ga : BitVec 5) (sh : BitVec 5) (s : State) : Res :=
  live s fun s => s.alu k (encRRI 0x1E gd ga (sh.zeroExtend 15)) gd fun c => (c.rd ga).sshiftRight sh.toNat

/-- LUI (R220): the immediate in bits [31:12]. -/
def execLui (k : CoreIx) (gd : BitVec 5) (imm : BitVec 20) (s : State) : Res :=
  live s fun s => s.alu k (encRI 0x20 gd imm) gd fun _ => imm ++ (0 : BitVec 12)

end Sys2Proof.Machine
end

