-- ==== Sys2Proof/Machine/Dispatch.lean ====
section
/-! DEFINITION. The dispatch of a command to its meaning: one arm per constructor of Instr. -/

namespace Sys2Proof.Machine

/-- The effect of a command on everything but the queue. -/
def exec (i : Instr) (s : State) : Host.Outcome State Fault Refusal :=
  match i with
  | .registerWrite a x width v => Sys2Proof.Machine.execRegisterWrite a x width v s
  | .rclrRead a x width => Sys2Proof.Machine.execRclrRead a x width s
  | .tickNowLo a => Sys2Proof.Machine.execTickNowLo a s
  | .tickEdgeLo a => Sys2Proof.Machine.execTickEdgeLo a s
  | .pcCntLo a p => Sys2Proof.Machine.execPcCntLo a p s
  | .pcTsLo a p => Sys2Proof.Machine.execPcTsLo a p s
  | .pcEvqPop a p width => Sys2Proof.Machine.execPcEvqPop a p width s
  | .reflexEvqPop a width => Sys2Proof.Machine.execReflexEvqPop a width s
  | .tickEdge obs moveBytes => Sys2Proof.Machine.execTickEdge obs moveBytes s
  | .dispatch e => Sys2Proof.Machine.execDispatch e s
  | .inputReady obs fs => Sys2Proof.Machine.execInputReady obs fs s
  | .stageDeadline => Sys2Proof.Machine.execStageDeadline s
  | .scoutSeal => Sys2Proof.Machine.execScoutSeal s
  | .tickPeriod a v => Sys2Proof.Machine.execTickPeriod a v s
  | .periodTakesEffect => Sys2Proof.Machine.execPeriodTakesEffect s
  | .tickMessageReceive m arrival => Sys2Proof.Machine.execTickMessageReceive m arrival s
  | .calReq a v => Sys2Proof.Machine.execCalReq a v s
  | .cableProbe => Sys2Proof.Machine.execCableProbe s
  | .probeReturn upstream roundTrip => Sys2Proof.Machine.execProbeReturn upstream roundTrip s
  | .cableDelayDone => Sys2Proof.Machine.execCableDelayDone s
  | .linkAcquire => Sys2Proof.Machine.execLinkAcquire s
  | .linkLock => Sys2Proof.Machine.execLinkLock s
  | .markerLost => Sys2Proof.Machine.execMarkerLost s
  | .acquisitionTick => Sys2Proof.Machine.execAcquisitionTick s
  | .pcMode a p v => Sys2Proof.Machine.execPcMode a p v s
  | .changeoverFrame p => Sys2Proof.Machine.execChangeoverFrame p s
  | .modeTakesEffect p => Sys2Proof.Machine.execModeTakesEffect p s
  | .portSettingsApply p => Sys2Proof.Machine.execPortSettingsApply p s
  | .pcOutSet a p v => Sys2Proof.Machine.execPcOutSet a p v s
  | .adcConversion p raw => Sys2Proof.Machine.execAdcConversion p raw s
  | .thermShutdown p => Sys2Proof.Machine.execThermShutdown p s
  | .thermCooled p => Sys2Proof.Machine.execThermCooled p s
  | .thermResume p => Sys2Proof.Machine.execThermResume p s
  | .learn a p v => Sys2Proof.Machine.execLearn a p v s
  | .learnComplete p => Sys2Proof.Machine.execLearnComplete p s
  | .cbCalReq a c v => Sys2Proof.Machine.execCbCalReq a c v s
  | .inServiceCalStart c => Sys2Proof.Machine.execInServiceCalStart c s
  | .inServiceCalDone c m adcSpan dacSpan => Sys2Proof.Machine.execInServiceCalDone c m adcSpan dacSpan s
  | .startUpCalibration => Sys2Proof.Machine.execStartUpCalibration s
  | .combReady c cells => Sys2Proof.Machine.execCombReady c cells s
  | .groupStart p => Sys2Proof.Machine.execGroupStart p s
  | .fsLow c => Sys2Proof.Machine.execFsLow c s
  | .fsLowClear c => Sys2Proof.Machine.execFsLowClear c s
  | .fsOvc c => Sys2Proof.Machine.execFsOvc c s
  | .fsOvcRestore c => Sys2Proof.Machine.execFsOvcRestore c s
  | .diRawEdge p level tdc => Sys2Proof.Machine.execDiRawEdge p level tdc s
  | .diEdge p => Sys2Proof.Machine.execDiEdge p s
  | .lineEdge p level both tdc => Sys2Proof.Machine.execLineEdge p level both tdc s
  | .lineFault p => Sys2Proof.Machine.execLineFault p s
  | .stepPulse p => Sys2Proof.Machine.execStepPulse p s
  | .pwmPeriodStart p => Sys2Proof.Machine.execPwmPeriodStart p s
  | .resolverLock p => Sys2Proof.Machine.execResolverLock p s
  | .resLoss p amplitude => Sys2Proof.Machine.execResLoss p amplitude s
  | .resLossEnd p => Sys2Proof.Machine.execResLossEnd p s
  | .excitationOpen p => Sys2Proof.Machine.execExcitationOpen p s
  | .ssiTransferEnd p bits startHigh endLow lineOk => Sys2Proof.Machine.execSsiTransferEnd p bits startHigh endLow lineOk s
  | .pcTxqPush a p v => Sys2Proof.Machine.execPcTxqPush a p v s
  | .txCharacterStart p cts => Sys2Proof.Machine.execTxCharacterStart p cts s
  | .txCharacterEnd p => Sys2Proof.Machine.execTxCharacterEnd p s
  | .loopOpen p => Sys2Proof.Machine.execLoopOpen p s
  | .startBit p tdc => Sys2Proof.Machine.execStartBit p tdc s
  | .rxChar p data parity stop1 stop2 => Sys2Proof.Machine.execRxChar p data parity stop1 stop2 s
  | .txqFlush a p v => Sys2Proof.Machine.execTxqFlush a p v s
  | .evqFlush a p v => Sys2Proof.Machine.execEvqFlush a p v s
  | .readerStep c dirHigh => Sys2Proof.Machine.execReaderStep c dirHigh s
  | .readerData c => Sys2Proof.Machine.execReaderData c s
  | .strobeStart c => Sys2Proof.Machine.execStrobeStart c s
  | .strobeEnd c => Sys2Proof.Machine.execStrobeEnd c s
  | .pcGraft a p v => Sys2Proof.Machine.execPcGraft a p v s
  | .graftRequest j => Sys2Proof.Machine.execGraftRequest j s
  | .auxContactChange j isOpen => Sys2Proof.Machine.execAuxContactChange j isOpen s
  | .armingComplete j => Sys2Proof.Machine.execArmingComplete j s
  | .rlyOpenFail j => Sys2Proof.Machine.execRlyOpenFail j s
  | .contactReportedClosed j => Sys2Proof.Machine.execContactReportedClosed j s
  | .regenerationEnd j => Sys2Proof.Machine.execRegenerationEnd j s
  | .releasingComplete j => Sys2Proof.Machine.execReleasingComplete j s
  | .rlyCloseFail j => Sys2Proof.Machine.execRlyCloseFail j s
  | .auxDisagree j => Sys2Proof.Machine.execAuxDisagree j s
  | .blendEnd j => Sys2Proof.Machine.execBlendEnd j s
  | .relayRail => Sys2Proof.Machine.execRelayRail s
  | .runChain q => Sys2Proof.Machine.execRunChain q s
  | .resumeChannel q => Sys2Proof.Machine.execResumeChannel q s
  | .clearChannel => Sys2Proof.Machine.execClearChannel s
  | .channelHalt n => Sys2Proof.Machine.execChannelHalt n s
  | .cceFetch n r => Sys2Proof.Machine.execCceFetch n r s
  | .cceNop n => Sys2Proof.Machine.execCceNop n s
  | .waitf n => Sys2Proof.Machine.execWaitf n s
  | .waitfEnd n => Sys2Proof.Machine.execWaitfEnd n s
  | .jump n => Sys2Proof.Machine.execJump n s
  | .callc n ecc => Sys2Proof.Machine.execCallc n ecc s
  | .retc n ecc => Sys2Proof.Machine.execRetc n ecc s
  | .ldcx n => Sys2Proof.Machine.execLdcx n s
  | .brcx n => Sys2Proof.Machine.execBrcx n s
  | .execW n r => Sys2Proof.Machine.execExecW n r s
  | .execR n => Sys2Proof.Machine.execExecR n s
  | .moveEntry n => Sys2Proof.Machine.execMoveEntry n s
  | .routineStart k => Sys2Proof.Machine.execRoutineStart k s
  | .chPostCfg a n v => Sys2Proof.Machine.execChPostCfg a n v s
  | .add k gd ga gb => Sys2Proof.Machine.execAdd k gd ga gb s
  | .sub k gd ga gb => Sys2Proof.Machine.execSub k gd ga gb s
  | .and k gd ga gb => Sys2Proof.Machine.execAnd k gd ga gb s
  | .or k gd ga gb => Sys2Proof.Machine.execOr k gd ga gb s
  | .xor k gd ga gb => Sys2Proof.Machine.execXor k gd ga gb s
  | .sll k gd ga gb => Sys2Proof.Machine.execSll k gd ga gb s
  | .srl k gd ga gb => Sys2Proof.Machine.execSrl k gd ga gb s
  | .sra k gd ga gb => Sys2Proof.Machine.execSra k gd ga gb s
  | .mul k gd ga gb => Sys2Proof.Machine.execMul k gd ga gb s
  | .mulh k gd ga gb => Sys2Proof.Machine.execMulh k gd ga gb s
  | .mulhu k gd ga gb => Sys2Proof.Machine.execMulhu k gd ga gb s
  | .slt k gd ga gb => Sys2Proof.Machine.execSlt k gd ga gb s
  | .sltu k gd ga gb => Sys2Proof.Machine.execSltu k gd ga gb s
  | .min k gd ga gb => Sys2Proof.Machine.execMin k gd ga gb s
  | .max k gd ga gb => Sys2Proof.Machine.execMax k gd ga gb s
  | .adds k gd ga gb => Sys2Proof.Machine.execAdds k gd ga gb s
  | .subs k gd ga gb => Sys2Proof.Machine.execSubs k gd ga gb s
  | .clz k gd ga => Sys2Proof.Machine.execClz k gd ga s
  | .abs k gd ga => Sys2Proof.Machine.execAbs k gd ga s
  | .addi k gd ga imm => Sys2Proof.Machine.execAddi k gd ga imm s
  | .andi k gd ga imm => Sys2Proof.Machine.execAndi k gd ga imm s
  | .ori k gd ga imm => Sys2Proof.Machine.execOri k gd ga imm s
  | .xori k gd ga imm => Sys2Proof.Machine.execXori k gd ga imm s
  | .slli k gd ga sh => Sys2Proof.Machine.execSlli k gd ga sh s
  | .srli k gd ga sh => Sys2Proof.Machine.execSrli k gd ga sh s
  | .srai k gd ga sh => Sys2Proof.Machine.execSrai k gd ga sh s
  | .slti k gd ga imm => Sys2Proof.Machine.execSlti k gd ga imm s
  | .lui k gd imm => Sys2Proof.Machine.execLui k gd imm s
  | .lw k gd ga imm => Sys2Proof.Machine.execLw k gd ga imm s
  | .lh k gd ga imm => Sys2Proof.Machine.execLh k gd ga imm s
  | .lhu k gd ga imm => Sys2Proof.Machine.execLhu k gd ga imm s
  | .lb k gd ga imm => Sys2Proof.Machine.execLb k gd ga imm s
  | .lbu k gd ga imm => Sys2Proof.Machine.execLbu k gd ga imm s
  | .sw k gs ga imm => Sys2Proof.Machine.execSw k gs ga imm s
  | .sh k gs ga imm => Sys2Proof.Machine.execSh k gs ga imm s
  | .sb k gs ga imm => Sys2Proof.Machine.execSb k gs ga imm s
  | .lwP k gd ga imm => Sys2Proof.Machine.execLwP k gd ga imm s
  | .swP k gs ga imm => Sys2Proof.Machine.execSwP k gs ga imm s
  | .lhP k gd ga imm => Sys2Proof.Machine.execLhP k gd ga imm s
  | .shP k gs ga imm => Sys2Proof.Machine.execShP k gs ga imm s
  | .tas k gd ga => Sys2Proof.Machine.execTas k gd ga s
  | .lr k gd ga => Sys2Proof.Machine.execLr k gd ga s
  | .sc k gd ga gb => Sys2Proof.Machine.execSc k gd ga gb s
  | .beq k ga gb off => Sys2Proof.Machine.execBeq k ga gb off s
  | .bne k ga gb off => Sys2Proof.Machine.execBne k ga gb off s
  | .blt k ga gb off => Sys2Proof.Machine.execBlt k ga gb off s
  | .bge k ga gb off => Sys2Proof.Machine.execBge k ga gb off s
  | .bltu k ga gb off => Sys2Proof.Machine.execBltu k ga gb off s
  | .bgeu k ga gb off => Sys2Proof.Machine.execBgeu k ga gb off s
  | .jmp k off => Sys2Proof.Machine.execJmp k off s
  | .jr k ga => Sys2Proof.Machine.execJr k ga s
  | .call k off => Sys2Proof.Machine.execCall k off s
  | .callr k ga => Sys2Proof.Machine.execCallr k ga s
  | .ret k => Sys2Proof.Machine.execRet k s
  | .mfc k gd cr => Sys2Proof.Machine.execMfc k gd cr s
  | .mtc k ga cr => Sys2Proof.Machine.execMtc k ga cr s
  | .done k => Sys2Proof.Machine.execDone k s
  | .trap k code => Sys2Proof.Machine.execTrap k code s
  | .eret k => Sys2Proof.Machine.execEret k s
  | .rpt k next => Sys2Proof.Machine.execRpt k next s
  | .loop k ga n => Sys2Proof.Machine.execLoop k ga n s
  | .scopy k sz two down => Sys2Proof.Machine.execScopy k sz two down s
  | .sfill k sz step gv => Sys2Proof.Machine.execSfill k sz step gv s
  | .scmp k sz two down gd c => Sys2Proof.Machine.execScmp k sz two down gd c s
  | .sseek k sz two down gv gd c => Sys2Proof.Machine.execSseek k sz two down gv gd c s
  | .sync k => Sys2Proof.Machine.execSync k s
  | .prd k gd ga sel => Sys2Proof.Machine.execPrd k gd ga sel s
  | .pwr k ga gb => Sys2Proof.Machine.execPwr k ga gb s
  | .atan2 k gd ga gb => Sys2Proof.Machine.execAtan2 k gd ga gb s
  | .sincos k gd ga gb cosine => Sys2Proof.Machine.execSincos k gd ga gb cosine s
  | .mag k gd ga gb => Sys2Proof.Machine.execMag k gd ga gb s
  | .div k gd ga gb remainder => Sys2Proof.Machine.execDiv k gd ga gb remainder s
  | .mz k op gd ga gb func => Sys2Proof.Machine.execMz k op gd ga gb func s
  | .mezzanineAnswer status w cycles => Sys2Proof.Machine.execMezzanineAnswer status w cycles s
  | .mzTimeout => Sys2Proof.Machine.execMzTimeout s
  | .loadReturn k stall ecc => Sys2Proof.Machine.execLoadReturn k stall ecc s
  | .storeArrival k e => Sys2Proof.Machine.execStoreArrival k e s
  | .scoutRun k => Sys2Proof.Machine.execScoutRun k s
  | .moveRun q => Sys2Proof.Machine.execMoveRun q s
  | .moveChannelServe bulk => Sys2Proof.Machine.execMoveChannelServe bulk s
  | .descriptorFetch m r => Sys2Proof.Machine.execDescriptorFetch m r s
  | .moveDescriptor m r => Sys2Proof.Machine.execMoveDescriptor m r s
  | .loopDescriptor m => Sys2Proof.Machine.execLoopDescriptor m s
  | .waitTick m => Sys2Proof.Machine.execWaitTick m s
  | .waitTickEnd m => Sys2Proof.Machine.execWaitTickEnd m s
  | .waitSignal m => Sys2Proof.Machine.execWaitSignal m s
  | .waitSignalWake m => Sys2Proof.Machine.execWaitSignalWake m s
  | .waitDrain m => Sys2Proof.Machine.execWaitDrain m s
  | .waitDrainEnd m => Sys2Proof.Machine.execWaitDrainEnd m s
  | .signal m => Sys2Proof.Machine.execSignal m s
  | .endProgram m => Sys2Proof.Machine.execEndProgram m s
  | .stop a m v => Sys2Proof.Machine.execStop a m v s
  | .moveStop m => Sys2Proof.Machine.execMoveStop m s
  | .dbSqTail a q v => Sys2Proof.Machine.execDbSqTail a q v s
  | .dbCqHead a q v => Sys2Proof.Machine.execDbCqHead a q v s
  | .admEn a v => Sys2Proof.Machine.execAdmEn a v s
  | .sqFetch q r => Sys2Proof.Machine.execSqFetch q r s
  | .sqReadRetry q r => Sys2Proof.Machine.execSqReadRetry q r s
  | .completionRecord q linkRefused => Sys2Proof.Machine.execCompletionRecord q linkRefused s
  | .moderationTimer v => Sys2Proof.Machine.execModerationTimer v s
  | .msixUnmask v => Sys2Proof.Machine.execMsixUnmask v s
  | .qstall q => Sys2Proof.Machine.execQstall q s
  | .qfault q => Sys2Proof.Machine.execQfault q s
  | .d3hot => Sys2Proof.Machine.execD3hot s
  | .d0Return => Sys2Proof.Machine.execD0Return s
  | .flr => Sys2Proof.Machine.execFlr s
  | .linkLoss lost => Sys2Proof.Machine.execLinkLoss lost s
  | .bar2Access x acc ecc => Sys2Proof.Machine.execBar2Access x acc ecc s
  | .nop q => Sys2Proof.Machine.execNop q s
  | .identify linkRefused => Sys2Proof.Machine.execIdentify linkRefused s
  | .createQp => Sys2Proof.Machine.execCreateQp s
  | .destroyQp => Sys2Proof.Machine.execDestroyQp s
  | .bindChannel => Sys2Proof.Machine.execBindChannel s
  | .loadRoutine r => Sys2Proof.Machine.execLoadRoutine r s
  | .coreHold k => Sys2Proof.Machine.execCoreHold k s
  | .setFeature => Sys2Proof.Machine.execSetFeature s
  | .getFeature => Sys2Proof.Machine.execGetFeature s
  | .getLog linkRefused => Sys2Proof.Machine.execGetLog linkRefused s
  | .faultAck => Sys2Proof.Machine.execFaultAck s
  | .imageStage r => Sys2Proof.Machine.execImageStage r s
  | .imageCommit => Sys2Proof.Machine.execImageCommit s
  | .timeSync linkRefused => Sys2Proof.Machine.execTimeSync linkRefused s
  | .fire r => Sys2Proof.Machine.execFire r s
  | .release a r v => Sys2Proof.Machine.execRelease a r v s
  | .followHoldEnd r => Sys2Proof.Machine.execFollowHoldEnd r s
  | .reflexComparatorCrossing r q => Sys2Proof.Machine.execReflexComparatorCrossing r q s
  | .estopInput chB on => Sys2Proof.Machine.execEstopInput chB on s
  | .estopOn => Sys2Proof.Machine.execEstopOn s
  | .reflexEstopReset a v => Sys2Proof.Machine.execReflexEstopReset a v s
  | .disc => Sys2Proof.Machine.execDisc s
  | .close a v => Sys2Proof.Machine.execClose a v s
  | .openDe a v => Sys2Proof.Machine.execOpenDe a v s
  | .deAux k => Sys2Proof.Machine.execDeAux k s
  | .reflexPlane => Sys2Proof.Machine.execReflexPlane s
  | .reflexEvqFlush a v => Sys2Proof.Machine.execReflexEvqFlush a v s
  | .setMark a p v => Sys2Proof.Machine.execSetMark a p v s
  | .rewind a p v => Sys2Proof.Machine.execRewind a p v s
  | .rewindOldest a p v => Sys2Proof.Machine.execRewindOldest a p v s
  | .faultReport h => Sys2Proof.Machine.execFaultReport h s
  | .recovery u => Sys2Proof.Machine.execRecovery u s
  | .unlock a v => Sys2Proof.Machine.execUnlock a v s
  | .strap => Sys2Proof.Machine.execStrap s
  | .go a v => Sys2Proof.Machine.execGo a v s
  | .overdraw => Sys2Proof.Machine.execOverdraw s
  | .temperatureRead t => Sys2Proof.Machine.execTemperatureRead t s
  | .vPfw obs => Sys2Proof.Machine.execVPfw obs s
  | .powerFailWarning => Sys2Proof.Machine.execPowerFailWarning s
  | .primaryOv => Sys2Proof.Machine.execPrimaryOv s
  | .drivingPortsHiz => Sys2Proof.Machine.execDrivingPortsHiz s
  | .hostRequestsEnd => Sys2Proof.Machine.execHostRequestsEnd s
  | .combSuppliesOff => Sys2Proof.Machine.execCombSuppliesOff s
  | .outputsOff => Sys2Proof.Machine.execOutputsOff s
  | .overload => Sys2Proof.Machine.execOverload s
  | .domainPowerDown a v => Sys2Proof.Machine.execDomainPowerDown a v s
  | .domainPowerUp a v => Sys2Proof.Machine.execDomainPowerUp a v s
  | .domainOff n => Sys2Proof.Machine.execDomainOff n s
  | .drainTimeout n => Sys2Proof.Machine.execDrainTimeout n s
  | .domainUp n => Sys2Proof.Machine.execDomainUp n s
  | .autoGate n => Sys2Proof.Machine.execAutoGate n s
  | .fanFail => Sys2Proof.Machine.execFanFail s
  | .capMeasurement => Sys2Proof.Machine.execCapMeasurement s
  | .esrPulse stepMilliVolt => Sys2Proof.Machine.execEsrPulse stepMilliVolt s
  | .capMeasurementEnd energy h => Sys2Proof.Machine.execCapMeasurementEnd energy h s
  | .isoMeasurement c delay h => Sys2Proof.Machine.execIsoMeasurement c delay h s
  | .slackMeasurement k slack held100ms h => Sys2Proof.Machine.execSlackMeasurement k slack held100ms h s
  | .zenerComparison c drift h => Sys2Proof.Machine.execZenerComparison c drift h s
  | .gaugeMinute ratio => Sys2Proof.Machine.execGaugeMinute ratio s
  | .hourlyEntry offsetPpb => Sys2Proof.Machine.execHourlyEntry offsetPpb s
  | .ledgerCommit => Sys2Proof.Machine.execLedgerCommit s
  | .ledgerRecovery => Sys2Proof.Machine.execLedgerRecovery s
  | .powerUp => Sys2Proof.Machine.execPowerUp s
  | .imageVerified norError h => Sys2Proof.Machine.execImageVerified norError h s
  | .localMemoryInitialised => Sys2Proof.Machine.execLocalMemoryInitialised s
  | .onPeriod h => Sys2Proof.Machine.execOnPeriod h s
  | .fwHalt => Sys2Proof.Machine.execFwHalt s
  | .restart a v => Sys2Proof.Machine.execRestart a v s
  | .restartCastOn => Sys2Proof.Machine.execRestartCastOn s
  | .warm a v h => Sys2Proof.Machine.execWarm a v h s
  | .usbRequest req payload => Sys2Proof.Machine.execUsbRequest req payload s
  | .usbBusReset => Sys2Proof.Machine.execUsbBusReset s
  | .identifyCycle answer => Sys2Proof.Machine.execIdentifyCycle answer s
  | .cardRemoval => Sys2Proof.Machine.execCardRemoval s
  | .relayRailReturn => Sys2Proof.Machine.execRelayRailReturn s
  | .linkUp => Sys2Proof.Machine.execLinkUp s
  | .isoBreach c => Sys2Proof.Machine.execIsoBreach c s
  | .coreEcc k addr => Sys2Proof.Machine.execCoreEcc k addr s
  | .undefinedOpcode k w => Sys2Proof.Machine.execUndefinedOpcode k w s
  | .cardDetect fitted => Sys2Proof.Machine.execCardDetect fitted s
  | .strapFitted => Sys2Proof.Machine.execStrapFitted s
  | .admRdy => Sys2Proof.Machine.execAdmRdy s
  | .breakEnd p => Sys2Proof.Machine.execBreakEnd p s
  | .pmeStatusClear => Sys2Proof.Machine.execPmeStatusClear s
  | .fanFailClear => Sys2Proof.Machine.execFanFailClear s
  | .imageCommandEnded => Sys2Proof.Machine.execImageCommandEnded s
  | .lossWithoutWarning torn => Sys2Proof.Machine.execLossWithoutWarning torn s
  | .doTerminalEdge p above => Sys2Proof.Machine.execDoTerminalEdge p above s

end Sys2Proof.Machine
end

