-- ==== Sys2Proof/WellFormed.lean ====
section
/-! DEFINITION. Well-formed commands: operands that the part can be given. Register accesses have a width that a bus transfer has (R327), and
only the host makes them outside BAR0 (R326), string
elements a size that the instruction encodes (R231), and what an outside read returned has the length that was read (R190, R302, R343, R500). -/

namespace Sys2Proof

/-- A width of a register access, in bits (R327). -/
def widthOk (w : Nat) : Bool := [8, 16, 32, 64].contains w

/-- A read that returned bytes returned `n` of them. -/
def ReadRes.has (n : Nat) : ReadRes → Bool
  | .ok b => b.length == n
  | _ => true

/-- Submission entries come in whole, one to four (R343). -/
def ReadRes.entries : ReadRes → Bool
  | .ok b => [64, 128, 192, 256].contains b.length
  | _ => true

/-- The command's operands are such that the part can be given them. -/
def Instr.wf : Instr → Bool
  | .registerWrite a x w _ => (a == .host || x.sp == .bar0) && widthOk w
  | .rclrRead a x w => (a == .host || x.sp == .bar0) && widthOk w
  | .pcEvqPop _ _ w => widthOk w
  | .reflexEvqPop _ w => widthOk w
  | .cceFetch _ r => r.has 16
  | .descriptorFetch _ r => r.has 32
  | .sqFetch _ r => r.entries
  | .sqReadRetry _ r => r.entries
  | .scopy _ sz _ _ => sz != 3
  | .sfill _ sz _ _ => sz != 3
  | .scmp _ sz _ _ _ _ => sz != 3
  | .sseek _ sz _ _ _ _ _ => sz != 3
  | .usbRequest req _ => req.length == 32
  | _ => true

end Sys2Proof
end

