-- ==== Sys2Proof/Safety.lean ====
section
/-! DEFINITION. What a safe run means in the terms that claims use: the properties of a state that every step keeps, what a step does not
change, and the conditions under which a command has its own effect. -/

namespace Sys2Proof.Machine

/-! ### Invariants -/

/-- Every memory is in its canonical form (log entry 8). -/
def State.canonical (s : State) : Prop :=
  Memory.wf s.lmem = true ∧ (∀ k : Fin 4, Memory.wf s.csram[k] = true) ∧
    (∀ k : CoreIx, Memory.wf s.cores[k].isram = true ∧ Memory.wf s.cores[k].dsram = true) ∧
    Memory.wf s.cast.slotA = true ∧ Memory.wf s.cast.slotB = true ∧
    ∀ b : Nor, s.cast.before = some b → Memory.wf b.slots.1 = true ∧ Memory.wf b.slots.2 = true

/-- No bypass coil is energised at a pair whose link relay is open (R144). -/
def State.coilsLinked (s : State) : Prop := ∀ j : PairIx, s.pairs[j].coil = true → s.pairs[j].link = true

/-- No link relay differs (R144). -/
def State.sameLinks (s t : State) : Prop := ∀ j : PairIx, t.pairs[j].link = s.pairs[j].link

/-- A key slot that is written stays as it is (R482). -/
def State.keysKept (s t : State) : Prop := ∀ (k : Fin 4) (d : List Byte), s.cast.keys[k] = some d → t.cast.keys[k] = some d

/-! ### Conditions -/

/-- The supplies stand: the module acts on commands (log entry 14). -/
abbrev State.alive (s : State) : Prop := s.psu.bind ≠ .off

/-- The command answers a next state with a property. -/
def Gives (c : Instr) (s : State) (P : State → Prop) : Prop := ∃ t, exec c s = .next t ∧ P t

/-! ### A Needle core at an instruction (R228, R237, R247) -/

/-- The core as the instruction finds it: results and stores at their distance have landed. -/
abbrev State.seen (s : State) (k : CoreIx) : Core := s.cores[k].begin

/-- Where a plain instruction goes on: at the branch's successor in a delay slot, else at the next word. -/
def Core.nextPc (c : Core) : Word := match c.slot with | some (_, t, _) => t | none => c.pc + 4

/-- Core k executes instructions, outside a repeat pair. -/
abbrev State.executes (s : State) (k : CoreIx) : Prop := s.alive ∧ s.cores[k].ready = true ∧ s.cores[k].rpt = none

/-- Core k executes an instruction that is not the last of a hardware loop, and goes on inside the program space. -/
abbrev State.goes (s : State) (k : CoreIx) : Prop :=
  s.executes k ∧ ¬(s.cores[k].cr.lact = true ∧ s.cores[k].pc = s.cores[k].cr.lend) ∧ s.cores[k].nextPc.toNat ≤ 0xFFFC

/-- The core goes on after a plain instruction: a delay slot closes. -/
def Core.goOn (c : Core) : Core :=
  { (match c.slot with | some (_, t, true) => c.leaveLoop t | _ => c) with pc := c.nextPc, slot := none }

/-- The instruction has begun: what was due has landed and its one cycle is charged (R47, R237). -/
def State.begun (s : State) (k : CoreIx) : State := (s.modCore k Core.begin).charge k 1

/-- Core k's instruction does f to the core and it goes on; nothing else differs from the begun state. -/
def State.did (s : State) (k : CoreIx) (f : Core → Core) : State := (s.begun k).modCore k fun c => (f c).goOn

/-- The state after a plain instruction that gives register gd the value v at once. -/
def State.wrote (s : State) (k : CoreIx) (gd : BitVec 5) (v : Word) : State := s.did k fun c => c.wr gd v

/-- The state after a plain instruction whose result lands in gd after d further instructions (R235). -/
def State.willWrite (s : State) (k : CoreIx) (gd : BitVec 5) (v : Word) (d : Nat) : State := s.did k fun c => c.later gd v d

/-! ### A channel at an entry (R170 to R175, R189) -/

/-- Channel n runs and has read the entry e of operation op, not the 64th control or flow entry in a row; it posts nothing. -/
abbrev State.atEntry (s : State) (n : ChIx) (op : Nat) (e : Cce) : Prop :=
  s.alive ∧ s.chans[n].ent = some e ∧ e.op = op ∧ s.chans[n].state = .active ∧ s.chans[n].wait = .executing ∧ s.chans[n].cont = none ∧
    s.chans[n].sc.release = [] ∧ s.chans[n].ctl < 63 ∧ s.chans[n].halting = false ∧ s.chans[n].post.en = false

/-- The channel after a control or flow entry that goes on at `next`: settings written meanwhile come into force (R204). -/
def Chan.passed (x : Chan) (next : Nat) : Chan :=
  { x.boundary with state := .active, wait := .executing, ent := none, op := none, cont := none, ctl := x.ctl + 1, next := next }

/-- A completion record of a command stands in its queue's backlog (R339, R344). -/
def State.ended (s : State) (c : Cmd) (status detail result : Nat) : Prop :=
  (⟨c.k, s.now, c.cid, status, detail, result, c.noirq⟩ : Done) ∈ s.qps[c.q].done

end Sys2Proof.Machine
end

