-- ==== Sys2Proof/Certificates/Slice0/Obligations.lean ====
section
/-! DEFINITION. The statements for the provers. An obligation of several parts is the conjunction of its claims (Claims.<Name>), which stand first;
each claim's docstring names the rules of spec/ whose words it takes up and the commands that it speaks of. -/

open Sys2Proof Sys2Proof.Machine

/-! ### Claims -/

/-- R144: an open link relay keeps its pair's bypass coil from being energised. From every state in which no coil stands energised at an open link, every
step leaves none. -/
def Claims.NoStepEnergisesACoilWithoutALink : Prop :=
  ∀ s t : State, step s = .next t → s.coilsLinked → t.coilsLinked

/-- R144: the link relays are set in START_UP_CALIBRATION alone: every other command leaves every link relay as it stands. -/
def Claims.LinkRelaysMoveAtStartUpOnly : Prop :=
  ∀ (s t : State) (c : Instr), c ≠ .startUpCalibration → exec c s = .next t → s.sameLinks t

/-- R220 (ADD, SUB, AND, OR, XOR, ADDI, ANDI, ORI, XORI, LUI): the destination holds the stated result for the next instruction, g0 takes
none, and nothing else changes but the program counter, the delay slot and the cycles charged. -/
def Claims.AddAndLogicResults : Prop :=
  ∀ (s : State) (k : CoreIx) (gd ga gb : BitVec 5) (imm : BitVec 15) (im20 : BitVec 20), s.goes k →
    let a := (s.seen k).rd ga
    let b := (s.seen k).rd gb
    exec (.add k gd ga gb) s = .next (s.wrote k gd (a + b)) ∧
    exec (.sub k gd ga gb) s = .next (s.wrote k gd (a - b)) ∧
    exec (.and k gd ga gb) s = .next (s.wrote k gd (a &&& b)) ∧
    exec (.or k gd ga gb) s = .next (s.wrote k gd (a ||| b)) ∧
    exec (.xor k gd ga gb) s = .next (s.wrote k gd (a ^^^ b)) ∧
    exec (.addi k gd ga imm) s = .next (s.wrote k gd (a + imm.signExtend 32)) ∧
    exec (.andi k gd ga imm) s = .next (s.wrote k gd (a &&& imm.setWidth 32)) ∧
    exec (.ori k gd ga imm) s = .next (s.wrote k gd (a ||| imm.setWidth 32)) ∧
    exec (.xori k gd ga imm) s = .next (s.wrote k gd (a ^^^ imm.setWidth 32)) ∧
    exec (.lui k gd im20) s = .next (s.wrote k gd (im20 ++ (0 : BitVec 12)))

/-- R220 (SLL, SRL, SRA, SLLI, SRLI, SRAI): shifts by the low five bits of g[gb] or by the immediate. -/
def Claims.ShiftResults : Prop :=
  ∀ (s : State) (k : CoreIx) (gd ga gb sh : BitVec 5), s.goes k →
    let a := (s.seen k).rd ga
    let n := ((s.seen k).rd gb).toNat % 32
    exec (.sll k gd ga gb) s = .next (s.wrote k gd (a <<< n)) ∧
    exec (.srl k gd ga gb) s = .next (s.wrote k gd (a >>> n)) ∧
    exec (.sra k gd ga gb) s = .next (s.wrote k gd (a.sshiftRight n)) ∧
    exec (.slli k gd ga sh) s = .next (s.wrote k gd (a <<< sh.toNat)) ∧
    exec (.srli k gd ga sh) s = .next (s.wrote k gd (a >>> sh.toNat)) ∧
    exec (.srai k gd ga sh) s = .next (s.wrote k gd (a.sshiftRight sh.toNat))

/-- R220 (SLT, SLTU, SLTI, MIN, MAX, ADDS, SUBS, ABS, CLZ): comparisons give 1 or 0; saturation is to the ends of the signed range; CLZ of v
is the n for which v lies in [2^(31−n), 2^(32−n)), and 32 for zero. -/
def Claims.CompareAndSaturateResults : Prop :=
  ∀ (s : State) (k : CoreIx) (gd ga gb : BitVec 5) (imm : BitVec 15), s.goes k →
    let a := (s.seen k).rd ga
    let b := (s.seen k).rd gb
    let sat (x : Int) : Word := if x < -2147483648 then 0x80000000 else if 2147483647 < x then 0x7FFFFFFF else BitVec.ofInt 32 x
    exec (.slt k gd ga gb) s = .next (s.wrote k gd (if a.toInt < b.toInt then 1 else 0)) ∧
    exec (.sltu k gd ga gb) s = .next (s.wrote k gd (if a.toNat < b.toNat then 1 else 0)) ∧
    exec (.slti k gd ga imm) s = .next (s.wrote k gd (if a.toInt < (imm.signExtend 32).toInt then 1 else 0)) ∧
    exec (.min k gd ga gb) s = .next (s.wrote k gd (BitVec.ofInt 32 (min a.toInt b.toInt))) ∧
    exec (.max k gd ga gb) s = .next (s.wrote k gd (BitVec.ofInt 32 (max a.toInt b.toInt))) ∧
    exec (.adds k gd ga gb) s = .next (s.wrote k gd (sat (a.toInt + b.toInt))) ∧
    exec (.subs k gd ga gb) s = .next (s.wrote k gd (sat (a.toInt - b.toInt))) ∧
    exec (.abs k gd ga) s = .next (s.wrote k gd (if a = 0x80000000 then 0x7FFFFFFF else if a.toInt < 0 then -a else a)) ∧
    ∃ n ≤ 32, exec (.clz k gd ga) s = .next (s.wrote k gd (BitVec.ofNat 32 n)) ∧ a.toNat < 2 ^ (32 - n) ∧ (n < 32 → 2 ^ (31 - n) ≤ a.toNat)

/-- R220, R235 (MUL, MULH, MULHU): the product's halves land after two further instructions. -/
def Claims.MultiplyResults : Prop :=
  ∀ (s : State) (k : CoreIx) (gd ga gb : BitVec 5), s.goes k →
    let a := (s.seen k).rd ga
    let b := (s.seen k).rd gb
    exec (.mul k gd ga gb) s = .next (s.willWrite k gd (BitVec.ofNat 32 (a.toNat * b.toNat)) 2) ∧
    exec (.mulh k gd ga gb) s = .next (s.willWrite k gd (BitVec.ofInt 32 (a.toInt * b.toInt / 2 ^ 32)) 2) ∧
    exec (.mulhu k gd ga gb) s = .next (s.willWrite k gd (BitVec.ofNat 32 (a.toNat * b.toNat / 2 ^ 32)) 2)

/-- R223: the address of a base-and-offset form is the sum; with a window enabled on g20 to g23 it is base + (sum mod size), inside the window. -/
def Claims.WindowedAddresses : Prop :=
  ∀ (c : Core) (i : Fin 4) (imm : BitVec 15),
    let ga : BitVec 5 := BitVec.ofNat 5 (20 + i.val)
    let cfg := c.cr.mwCfg[i]
    let size := 2 ^ fld cfg 4 0
    let base := c.cr.mwBase[i].toNat / size * size
    let x := c.rd ga
    let m := imm.signExtend 32
    (bit cfg 7 = false → c.ea ga imm = x + m ∧ c.updated ga imm = x + m) ∧
    (bit cfg 7 = true → (c.ea ga imm).toNat = base + (x + m).toNat % size) ∧
    (bit cfg 7 = true → bit cfg 6 = false → (c.updated ga imm).toNat = base + (x + m).toNat % size) ∧
    ∀ r : BitVec 5, (r.toNat < 20 ∨ 23 < r.toNat) → c.ea r imm = c.rd r + m ∧ c.updated r imm = c.rd r + m

/-- R213, R214, R222: a misaligned access, one to no region, and a post-modify load into its own base trap, with the cause and the address. -/
def Claims.BadAccessesTrap : Prop :=
  ∀ (s : State) (k : CoreIx) (g ga : BitVec 5) (imm : BitVec 15), s.goes k → s.cores[k].inScout = false →
    let a := (s.seen k).ea ga imm
    let none_ (a : Word) : Prop := (0x28000 ≤ a.toNat ∧ a.toNat < 0x40000000) ∨ 0x81000000 ≤ a.toNat
    (a.toNat % 4 ≠ 0 →
      exec (.lw k g ga imm) s = .next ((s.begun k).trap k (encRRI 0x28 g ga imm) 0x03 0 a).settle ∧
      exec (.sw k g ga imm) s = .next ((s.begun k).trap k (encRRI 0x2D g ga imm) 0x03 0 a).settle) ∧
    (a.toNat % 2 ≠ 0 →
      exec (.lh k g ga imm) s = .next ((s.begun k).trap k (encRRI 0x29 g ga imm) 0x03 0 a).settle ∧
      exec (.lhu k g ga imm) s = .next ((s.begun k).trap k (encRRI 0x2A g ga imm) 0x03 0 a).settle ∧
      exec (.sh k g ga imm) s = .next ((s.begun k).trap k (encRRI 0x2E g ga imm) 0x03 0 a).settle) ∧
    (none_ a → a.toNat % 4 = 0 →
      exec (.lw k g ga imm) s = .next ((s.begun k).trap k (encRRI 0x28 g ga imm) 0x04 0 a).settle ∧
      exec (.sw k g ga imm) s = .next ((s.begun k).trap k (encRRI 0x2D g ga imm) 0x04 0 a).settle) ∧
    exec (.lwP k ga ga imm) s = .next ((s.begun k).trap k (encRRI 0x30 ga ga imm) 0x01 0 0).settle ∧
    exec (.lhP k ga ga imm) s = .next ((s.begun k).trap k (encRRI 0x32 ga ga imm) 0x01 0 0).settle

/-- R216, R239: what the core's own loads see of data SRAM: the bytes that stand there where no store waits or is still unseen; of one store that
waits in the buffer its bytes at its distance and the old bytes before; of one that has arrived and is unseen the old bytes. -/
def Claims.WhatLoadsSee : Prop :=
  ∀ (c : Core) (a n : Nat) (b o : List Byte) (l : Nat), b.length = n → o.length = n → a + n ≤ 0x20000 → 0 < n →
    let mem := Memory.read c.dsram a n
    ((∀ f ∈ c.sb, 0x20000 ≤ f.addr) → c.fresh = [] → c.dataBytes a n = mem) ∧
    (c.fresh = [] → c.sb = [⟨a, b, 0⟩] → c.dataBytes a n = b) ∧
    (c.fresh = [] → c.sb = [⟨a, b, l⟩] → (l = 1 ∨ l = 2) → c.dataBytes a n = mem) ∧
    (c.fresh = [⟨a, o, b, l⟩] → c.sb = [] → l ≠ 3 → c.dataBytes a n = o)

/-- R221, R222, R235, R239 (LW, LH, LHU, LB, LBU, LW.P, LH.P): a load from data SRAM gives the bytes that its core sees there, extended as the form
says, after three further instructions; a post-modify form updates its base at once; nothing else changes. -/
def Claims.LoadsFromDataSram : Prop :=
  ∀ (s : State) (k : CoreIx) (gd ga : BitVec 5) (imm : BitVec 15), s.goes k → s.cores[k].inScout = false →
    let c := s.seen k
    let mem (a : Word) (n : Nat) : Nat := ofLeBytes (c.dataBytes a.toNat n)
    let a := c.ea ga imm
    let b := c.rd ga
    let post (d : Core) : Core := d.wr ga (c.updated ga imm)
    (a.toNat < 0x20000 → a.toNat % 4 = 0 → exec (.lw k gd ga imm) s = .next (s.willWrite k gd (BitVec.ofNat 32 (mem a 4)) 3).settle) ∧
    (a.toNat < 0x20000 → a.toNat % 2 = 0 →
      exec (.lh k gd ga imm) s = .next (s.willWrite k gd ((BitVec.ofNat 16 (mem a 2)).signExtend 32) 3).settle ∧
      exec (.lhu k gd ga imm) s = .next (s.willWrite k gd ((BitVec.ofNat 16 (mem a 2)).setWidth 32) 3).settle) ∧
    (a.toNat < 0x20000 →
      exec (.lb k gd ga imm) s = .next (s.willWrite k gd ((BitVec.ofNat 8 (mem a 1)).signExtend 32) 3).settle ∧
      exec (.lbu k gd ga imm) s = .next (s.willWrite k gd ((BitVec.ofNat 8 (mem a 1)).setWidth 32) 3).settle) ∧
    (gd ≠ ga → b.toNat < 0x20000 → b.toNat % 4 = 0 →
      exec (.lwP k gd ga imm) s = .next (s.did k fun d => (post d).later gd (BitVec.ofNat 32 (mem b 4)) 3).settle) ∧
    (gd ≠ ga → b.toNat < 0x20000 → b.toNat % 2 = 0 →
      exec (.lhP k gd ga imm) s = .next (s.did k fun d => (post d).later gd ((BitVec.ofNat 16 (mem b 2)).signExtend 32) 3).settle)

/-- R215: a load from cluster SRAM or local memory holds its core with the load outstanding; the instruction has not completed and nothing
else changes. -/
def Claims.FarLoadsHoldTheCore : Prop :=
  ∀ (s : State) (k : CoreIx) (gd ga : BitVec 5) (imm : BitVec 15), s.goes k →
    let far (a : Word) : Prop := (0x20000 ≤ a.toNat ∧ a.toNat < 0x28000) ∨ (0x40000000 ≤ a.toNat ∧ a.toNat < 0x80000000)
    let held (w a : Word) (n : Nat) (sgn : Bool) (base : Option (BitVec 5 × Word)) : State :=
      ((s.begun k).modCore k fun c => { c with hold := some (.load w gd a n sgn none base), held := (s.now, 0) }).settle
    let a := (s.seen k).ea ga imm
    let b := (s.seen k).rd ga
    let upd := (s.seen k).updated ga imm
    (far a → a.toNat % 4 = 0 → exec (.lw k gd ga imm) s = .next (held (encRRI 0x28 gd ga imm) a 4 false none)) ∧
    (far a → a.toNat % 2 = 0 → exec (.lh k gd ga imm) s = .next (held (encRRI 0x29 gd ga imm) a 2 true none) ∧
      exec (.lhu k gd ga imm) s = .next (held (encRRI 0x2A gd ga imm) a 2 false none)) ∧
    (far a → exec (.lb k gd ga imm) s = .next (held (encRRI 0x2B gd ga imm) a 1 true none) ∧
      exec (.lbu k gd ga imm) s = .next (held (encRRI 0x2C gd ga imm) a 1 false none)) ∧
    (far b → gd ≠ ga → b.toNat % 4 = 0 → exec (.lwP k gd ga imm) s = .next (held (encRRI 0x30 gd ga imm) b 4 false (some (ga, upd)))) ∧
    (far b → gd ≠ ga → b.toNat % 2 = 0 → exec (.lhP k gd ga imm) s = .next (held (encRRI 0x32 gd ga imm) b 2 true (some (ga, upd))))

/-- R215 (LOAD_RETURN): the held load's value, as the core reads it once its earlier stores to that region have arrived, is on its way to its
destination, the base of a post-modify form is updated, and the instruction is complete; with an uncorrectable error of local memory the
memory-error trap is taken instead. -/
def Claims.LoadReturnCompletes : Prop :=
  ∀ (s : State) (k : CoreIx) (w a : Word) (gd : BitVec 5) (n stall : Nat) (sgn ecc : Bool) (val : Option Word) (base : Option (BitVec 5 × Word)),
    s.alive → s.cores[k].hold = some (.load w gd a n sgn val base) →
    let l := locOf s.cores[k].cr.lmw a.toNat
    let u := (s.charge k (holdCycles l stall - s.cores[k].held.2)).modCore k fun c => { c with hold := none }
    ((ecc = false ∨ ∀ o, l ≠ .lmem o) → ∃ v : Word,
      exec (.loadReturn k stall ecc) s =
        .next (((u.drainRegion k l).modCore k fun c => (c.wrs base.toList).later gd v 3).retire k w).settle ∧
      (val = none → v = loadVal ((u.drainRegion k l).coreBytes k l n) sgn) ∧ (∀ x, val = some x → v = x)) ∧
    (ecc = true → (∃ o, l = .lmem o) → exec (.loadReturn k stall ecc) s = .next (u.trap k w 0x06 0 a).settle)

/-- R216, R221, R222, R239 (SW, SH, SB, SW.P, SH.P): outside the Scout lane a store with room in the buffer is posted with the low bytes of
its source, where it waits to arrive; one to data SRAM is seen by the core's own loads after two further instructions; a post-modify form updates its
base; nothing else changes. -/
def Claims.StoresArePosted : Prop :=
  ∀ (s : State) (k : CoreIx) (gs ga : BitVec 5) (imm : BitVec 15), s.goes k → s.cores[k].inScout = false → s.cores[k].sb.length < 8 →
    let c := s.seen k
    let ok (a : Word) (n : Nat) : Prop := a.toNat % n = 0 ∧
      (a.toNat < 0x28000 ∨ (0x40000000 ≤ a.toNat ∧ a.toNat < 0x80000000))
    let kept (a : Word) : Nat := if a.toNat < 0x28000 then a.toNat else 2 ^ 32 + c.cr.lmw * 2 ^ 28 + (a.toNat - 0x40000000)
    let put_ (d : Core) (a : Word) (n : Nat) : Core :=
      { d with sb := d.sb ++ [⟨kept a, leBytes n (c.rd gs).toNat, if a.toNat < 0x20000 then 3 else 0⟩] }
    let a := c.ea ga imm
    let b := c.rd ga
    let upd := c.updated ga imm
    (ok a 4 → exec (.sw k gs ga imm) s = .next (s.did k fun d => put_ d a 4).settle) ∧
    (ok a 2 → exec (.sh k gs ga imm) s = .next (s.did k fun d => put_ d a 2).settle) ∧
    (ok a 1 → exec (.sb k gs ga imm) s = .next (s.did k fun d => put_ d a 1).settle) ∧
    (ok b 4 → exec (.swP k gs ga imm) s = .next (s.did k fun d => (put_ d b 4).wr ga upd).settle) ∧
    (ok b 2 → exec (.shP k gs ga imm) s = .next (s.did k fun d => (put_ d b 2).wr ga upd).settle)

/-- R216, R239 (STORE_ARRIVAL): the oldest buffered store of its region leaves the buffer; its bytes then stand at its address and every other byte is
as before; one to data SRAM that the core's loads may not see yet leaves the old bytes for them. -/
def Claims.StoreArrivalWritesItsBytes : Prop :=
  ∀ (s : State) (k : CoreIx) (i : Fin 8) (st : Store), s.alive → s.canonical → s.cores[k].hold = none → s.cores[k].sb[i.val]? = some st →
    (∀ x ∈ s.cores[k].sb.take i.val, (locAt x.addr).sameRegion (locAt st.addr) = false) →
    (st.addr < 0x20000 → Gives (.storeArrival k i) s fun t =>
      Memory.read t.cores[k].dsram st.addr st.bytes.length = st.bytes ∧
      (∀ x, x < st.addr ∨ st.addr + st.bytes.length ≤ x → Memory.get t.cores[k].dsram x = Memory.get s.cores[k].dsram x) ∧
      t.cores[k] = { s.cores[k] with
        sb := s.cores[k].sb.eraseIdx i.val, dsram := t.cores[k].dsram
        fresh := s.cores[k].fresh ++ (if st.left = 0 then [] else [⟨st.addr, Memory.read s.cores[k].dsram st.addr st.bytes.length, st.bytes, st.left⟩]) } ∧
      (∀ j, j ≠ k → t.cores[j] = s.cores[j]) ∧ t = { s with cores := t.cores, rules := t.rules }) ∧
    (∀ o, locAt st.addr = .lmem o → Gives (.storeArrival k i) s fun t =>
      Memory.read t.lmem o st.bytes.length = st.bytes ∧ (∀ x, x < o ∨ o + st.bytes.length ≤ x → Memory.get t.lmem x = Memory.get s.lmem x) ∧
      t.cores[k].sb = s.cores[k].sb.eraseIdx i.val ∧ t.csram = s.csram ∧ t.ports = s.ports ∧ t.chans = s.chans) ∧
    (∀ a, locAt st.addr = .cluster a → Gives (.storeArrival k i) s fun t =>
      Memory.read t.csram[clusterOf k] a st.bytes.length = st.bytes ∧
      (∀ x, x < a ∨ a + st.bytes.length ≤ x → Memory.get t.csram[clusterOf k] x = Memory.get s.csram[clusterOf k] x) ∧
      (∀ q, q ≠ clusterOf k → t.csram[q] = s.csram[q]) ∧
      t.cores[k].sb = s.cores[k].sb.eraseIdx i.val ∧ t.lmem = s.lmem ∧ t.ports = s.ports ∧ t.chans = s.chans)

/-- R228 (BEQ, BNE, BLT, BGE, BLTU, BGEU): the branch opens a delay slot at the next word; after it execution continues at
pc + 4 × offset if the condition held, at pc + 8 otherwise; nothing else changes. -/
def Claims.BranchesOpenADelaySlot : Prop :=
  ∀ (s : State) (k : CoreIx) (ga gb : BitVec 5) (off : BitVec 15), s.goes k → s.cores[k].slot = none →
    let a := (s.seen k).rd ga
    let b := (s.seen k).rd gb
    let pc := s.cores[k].pc
    let opened (taken : Bool) : State := (s.begun k).modCore k fun c =>
      { c with pc := pc + 4, slot := some (pc, if taken then pc + BitVec.ofInt 32 (4 * off.toInt) else pc + 8, taken) }
    exec (.beq k ga gb off) s = .next (opened (decide (a = b))) ∧
    exec (.bne k ga gb off) s = .next (opened (decide (a ≠ b))) ∧
    exec (.blt k ga gb off) s = .next (opened (decide (a.toInt < b.toInt))) ∧
    exec (.bge k ga gb off) s = .next (opened (decide (b.toInt ≤ a.toInt))) ∧
    exec (.bltu k ga gb off) s = .next (opened (decide (a.toNat < b.toNat))) ∧
    exec (.bgeu k ga gb off) s = .next (opened (decide (b.toNat ≤ a.toNat)))

/-- R229, R230, R248, R250 (JMP, JR, CALL, CALLR, RET): a good target is where execution continues; JMP and JR out of the loop body end the
loop; CALL and CALLR push pc + 4 below the stack pointer, RET pops its target from it. -/
def Claims.JumpsCallsAndReturns : Prop :=
  ∀ (s : State) (k : CoreIx) (ga : BitVec 5) (off : BitVec 25), s.goes k → s.cores[k].slot = none →
    let c := s.seen k
    let good (t : Word) : Prop := t.toNat % 4 = 0 ∧ t.toNat ≤ 0xFFFC
    let rel := c.pc + BitVec.ofInt 32 (4 * off.toInt)
    let left (d : Core) (t : Word) : Core :=
      if c.cr.lact = true ∧ (t < c.cr.lstart ∨ c.cr.lend < t) then { d with cr := { d.cr with lact := false }, pc := t } else { d with pc := t }
    let sp := c.rd 31 - 4
    let pushed (d : Core) (t : Word) : Core :=
      { ({ d with sb := d.sb ++ [⟨sp.toNat, leBytes 4 (c.pc + 4).toNat, if sp.toNat < 0x20000 then 3 else 0⟩] } : Core).wr 31 sp with pc := t }
    let room : Prop := s.cores[k].inScout = false ∧ c.sb.length < 8 ∧ sp.toNat % 4 = 0 ∧ c.cr.spLim.toNat ≤ sp.toNat ∧ sp.toNat < 0x28000
    (good rel → exec (.jmp k off) s = .next ((s.begun k).modCore k fun d => left d rel)) ∧
    (good (c.rd ga) → exec (.jr k ga) s = .next ((s.begun k).modCore k fun d => left d (c.rd ga))) ∧
    (good rel → room → exec (.call k off) s = .next ((s.begun k).modCore k fun d => pushed d rel)) ∧
    (good (c.rd ga) → room → exec (.callr k ga) s = .next ((s.begun k).modCore k fun d => pushed d (c.rd ga))) ∧
    ((c.rd 31).toNat < 0x20000 → (c.rd 31).toNat % 4 = 0 → s.cores[k].inScout = false →
      let t : Word := BitVec.ofNat 32 (ofLeBytes (c.dataBytes (c.rd 31).toNat 4))
      good t → exec (.ret k) s = .next ((s.begun k).modCore k fun d => { d.wr 31 (c.rd 31 + 4) with pc := t }))

/-- R229, R247, R248, R241: where execution goes on after an instruction: past a delay slot at the branch's successor; at LEND of an active
loop rc falls by one and the next pass begins or the loop ends; past 0x0000_FFFC the instruction-address trap is taken. -/
def Claims.WhereExecutionGoesOn : Prop :=
  ∀ (s : State) (k : CoreIx) (w : Word),
    let c := s.cores[k]
    let atEnd : Prop := c.cr.lact = true ∧ c.pc = c.cr.lend
    (¬atEnd → c.nextPc.toNat ≤ 0xFFFC → s.retire k w = s.modCore k fun d => d.goOn) ∧
    (¬atEnd → c.slot = none → c.pc = 0xFFFC → s.retire k w = s.trapAt k 0xFFFC 0xFFFC w 0x02 0 0x10000 false false) ∧
    (atEnd → c.slot = none → c.landDue.rd 29 ≠ 1 → c.cr.lstart.toNat ≤ 0xFFFC →
      s.retire k w = s.modCore k fun d => { d.landDue.wr 29 (d.landDue.rd 29 - 1) with pc := c.cr.lstart }) ∧
    (atEnd → c.slot = none → c.landDue.rd 29 = 1 → c.pc.toNat + 4 ≤ 0xFFFC →
      s.retire k w = s.modCore k fun d => { d.landDue.wr 29 0 with cr := { d.cr with lact := false }, pc := c.pc + 4 })

/-- R229, R230: the traps of calls and jumps: a bad target, a stack pointer that is misaligned, below SP_LIM or outside the stack's memories. -/
def Claims.BadTargetsAndStacksTrap : Prop :=
  ∀ (s : State) (k : CoreIx) (ga : BitVec 5), s.goes k → s.cores[k].slot = none → s.cores[k].inScout = false →
    let c := s.seen k
    let t := c.rd ga
    let sp := c.rd 31 - 4
    let bad : Prop := t.toNat % 4 ≠ 0 ∨ 0xFFFC < t.toNat
    let w := encRRR 0x41 0 ga 0 0
    (bad → exec (.jr k ga) s = .next ((s.begun k).trap k (encRRR 0x3F 0 ga 0 0) 0x02 0 0)) ∧
    (bad → exec (.callr k ga) s = .next ((s.begun k).trap k w 0x02 0 0)) ∧
    (¬bad → sp.toNat % 4 ≠ 0 → exec (.callr k ga) s = .next ((s.begun k).trap k w 0x03 0 sp)) ∧
    (¬bad → sp.toNat % 4 = 0 → sp.toNat < c.cr.spLim.toNat → exec (.callr k ga) s = .next ((s.begun k).trap k w 0x05 0 sp)) ∧
    (¬bad → sp.toNat % 4 = 0 → c.cr.spLim.toNat ≤ sp.toNat → 0x28000 ≤ sp.toNat →
      exec (.callr k ga) s = .next ((s.begun k).trap k w 0x04 0 sp)) ∧
    ((c.rd 31).toNat % 4 ≠ 0 → exec (.ret k) s = .next ((s.begun k).trap k (encN 0x42) 0x03 0 (c.rd 31)))

/-- R240, R249: an instruction of the flow family in a delay slot or at the end of a hardware loop is illegal, and so is an instruction that
is at once in a delay slot and at a loop's end. -/
def Claims.FlowIsIllegalInSlotAndAtLoopEnd : Prop :=
  ∀ (s : State) (k : CoreIx) (ga gb gd : BitVec 5) (off : BitVec 15) (off25 : BitVec 25) (code : Byte) (next : Word),
    s.executes k →
    let atEnd : Prop := s.cores[k].cr.lact = true ∧ s.cores[k].pc = s.cores[k].cr.lend
    let illegal (w : Word) : Host.Outcome State Fault Refusal := .next ((s.begun k).trap k w 0x01 0 0)
    (s.cores[k].slot.isSome = true ∨ atEnd →
      exec (.beq k ga gb off) s = illegal (encRRI 0x38 ga gb off) ∧ exec (.bne k ga gb off) s = illegal (encRRI 0x39 ga gb off) ∧
      exec (.jmp k off25) s = illegal (encJ 0x3E off25) ∧ exec (.jr k ga) s = illegal (encRRR 0x3F 0 ga 0 0) ∧
      exec (.call k off25) s = illegal (encJ 0x40 off25) ∧ exec (.ret k) s = illegal (encN 0x42) ∧
      exec (.done k) s = illegal (encN 0x46) ∧ exec (.trap k code) s = illegal (encT code) ∧ exec (.eret k) s = illegal (encN 0x48) ∧
      exec (.loop k ga off) s = illegal (encRRI 0x4A 0 ga off) ∧ exec (.rpt k next) s = illegal (encN 0x49)) ∧
    (s.cores[k].slot.isSome = true → atEnd → exec (.add k gd ga gb) s = illegal (encRRR 0x01 gd ga gb 0))

/-- R253, R254 (TRAP, UNDEFINED_OPCODE): taking a trap lands what is in flight, saves the addresses, cause, code and word, clears the
reservation and the loop, costs eight further cycles, and goes on at TVEC while the handler is enabled and not running. -/
def Claims.TrapEntry : Prop :=
  ∀ (s : State) (k : CoreIx) (code : Byte) (w : Word), s.goes k → s.cores[k].slot = none →
    s.cores[k].tr.en = true → s.cores[k].tr.inTrap = false →
    let c := s.seen k
    let taken (t : State) (w : Word) (cause code : Nat) (erpc : Word) : Prop :=
      let d := t.cores[k]
      d.pc = c.tr.tvec ∧ d.tr.inTrap = true ∧ d.tr.cause = cause ∧ d.tr.code = code ∧ d.tr.etpc = c.pc &&& 0xFFFC ∧
      d.tr.erpc = erpc &&& 0xFFFC ∧ d.tr.ebad = 0 ∧ d.tr.einstr = w ∧ d.tr.ds = false ∧ d.tr.rpt = false ∧ d.tr.plact = c.cr.lact ∧
      d.tr.tvec = c.tr.tvec ∧ d.tr.en = true ∧ d.g = c.landAll.g ∧ d.fly = [] ∧ d.hold = none ∧ d.slot = none ∧
      d.cr = { c.cr with rsv := none, lact := false } ∧ d.cyc = s.cores[k].cyc + 9 ∧ d.sb = c.sb ∧ d.dsram = c.dsram ∧
      t = { s with cores := s.cores.set k d, chans := t.chans }
    Gives (.trap k code) s (fun t => taken t (encT code) 0x0B code.toNat (c.pc + 4)) ∧
    (undefinedWord w = true → Gives (.undefinedOpcode k w) s fun t => taken t w 0x01 0 c.pc)

/-- R255 (ERET): the handler ends, LACT is restored and execution continues at ERPC; outside a handler ERET is illegal. -/
def Claims.TrapReturn : Prop :=
  ∀ (s : State) (k : CoreIx), s.goes k → s.cores[k].slot = none →
    (s.cores[k].tr.inTrap = true → s.cores[k].tr.erpc.toNat ≤ 0xFFFC → (s.cores[k].tr.plact = false ∨ s.cores[k].cr.lend ≠ s.cores[k].pc) →
      exec (.eret k) s = .next (((s.begun k).charge k 3).modCore k fun d =>
        { d with tr := { d.tr with inTrap := false }, cr := { d.cr with lact := d.tr.plact }, pc := d.tr.erpc })) ∧
    (s.cores[k].tr.inTrap = false → exec (.eret k) s = .next ((s.begun k).trap k (encN 0x48) 0x01 0 0))

/-- R242, R243, R247 (LOOP, RPT): LOOP sets rc, LSTART, LEND and LACT, and with rc = 0 passes the body; RPT opens its pair, and with rc = 0
passes the string instruction. -/
def Claims.LoopAndRepeatOpen : Prop :=
  ∀ (s : State) (k : CoreIx) (ga : BitVec 5) (n : BitVec 15) (next : Word), s.goes k → s.cores[k].slot = none →
    let c := s.seen k
    let cnt := c.rd ga
    let e := c.pc.toNat + 4 * n.toNat
    (c.cr.lact = false → 1 ≤ n.toNat → n.toNat ≤ 4096 → e + 4 ≤ 0xFFFC →
      exec (.loop k ga n) s = .next ((s.begun k).modCore k fun d =>
        { d.wr 29 cnt with cr := { d.cr with lstart := c.pc + 4, lend := BitVec.ofNat 32 e, lact := decide (cnt ≠ 0) }
                           pc := if cnt = 0 then BitVec.ofNat 32 (e + 4) else c.pc + 4 })) ∧
    (c.cr.lact = true → exec (.loop k ga n) s = .next ((s.begun k).trap k (encRRI 0x4A 0 ga n) 0x01 0 0)) ∧
    (rptLegal next = true → c.pc.toNat < 0xFFFC → c.rd 28 ≠ 0 →
      exec (.rpt k next) s = .next ((s.begun k).modCore k fun d => { d with rpt := some ⟨c.pc, next, none⟩ })) ∧
    (rptLegal next = true → c.pc.toNat + 8 ≤ 0xFFFC → c.cr.lact = false → c.rd 28 = 0 →
      exec (.rpt k next) s = .next ((s.begun k).modCore k fun d => { d with pc := c.pc + 8 })) ∧
    (rptLegal next = false → exec (.rpt k next) s = .next ((s.begun k).trap k (encN 0x49) 0x01 0 0))

/-- R232, R233 (SYNC, DONE): with an empty store buffer SYNC goes on and DONE ends the routine: the core is free, and its reservation and its
results in flight are gone; otherwise each holds the core, and DONE has given up the reservation. -/
def Claims.SyncAndDone : Prop :=
  ∀ (s : State) (k : CoreIx) (r : Run), s.goes k → s.cores[k].slot = none → s.cores[k].run = some r → r.scout = false →
    (s.cores[k].sb = [] → exec (.sync k) s = .next (s.did k id) ∧
      Gives (.done k) s fun t => t.cores[k].run = none ∧ t.cores[k].hold = none ∧ t.cores[k].fly = [] ∧ t.cores[k].cr.rsv = none ∧
        t.cores[k].cyc = s.cores[k].cyc + 1 ∧ t.chans[r.ch].cyc = s.chans[r.ch].cyc + 1) ∧
    (s.cores[k].sb ≠ [] →
      exec (.sync k) s = .next ((s.begun k).modCore k fun c => { c with hold := some .sync, held := (s.now, 0) }) ∧
      exec (.done k) s = .next ((s.begun k).modCore k fun c => { c with cr := { c.cr with rsv := none }, hold := some .done, held := (s.now, 0) }))

/-- R210, R211 (MFC): the core and channel numbers, the time base and the tick edge with their captured halves, the channel's cx registers,
the stack limit and the trap registers; an undefined number is illegal. -/
def Claims.ControlRegisterReads : Prop :=
  ∀ (s : State) (k : CoreIx) (gd : BitVec 5) (cr : BitVec 10) (r : Run) (j : Fin 16), s.goes k → s.cores[k].run = some r → r.scout = false →
    let c := s.seen k
    let get (n : Nat) (v : Word) : Prop := exec (.mfc k gd (BitVec.ofNat 10 n)) s = .next (s.wrote k gd v)
    get 0x000 (BitVec.ofNat 32 k.val) ∧ get 0x001 (BitVec.ofNat 32 r.ch.val) ∧ get 0x009 c.cr.spLim ∧
    get (0x010 + j.val) s.chans[r.ch].cx[j] ∧ get 0x033 c.tr.etpc ∧ get 0x034 c.tr.erpc ∧ get 0x035 c.tr.ebad ∧ get 0x036 c.tr.einstr ∧
    get 0x032 (BitVec.ofNat 32 (c.tr.code * 256 + c.tr.cause)) ∧
    get 0x005 c.cr.nowHi ∧ get 0x007 (c.cr.edgeHi.getD (BitVec.ofNat 32 (s.tick.edge / 2 ^ 32))) ∧
    exec (.mfc k gd 0x004) s = .next (s.did k fun d =>
      ({ d with cr := { d.cr with nowHi := BitVec.ofNat 32 (s.tick.now / 2 ^ 32) } } : Core).wr gd (BitVec.ofNat 32 s.tick.now)) ∧
    exec (.mfc k gd 0x006) s = .next (s.did k fun d =>
      ({ d with cr := { d.cr with edgeHi := some (BitVec.ofNat 32 (s.tick.edge / 2 ^ 32)) } } : Core).wr gd (BitVec.ofNat 32 s.tick.edge)) ∧
    ((0x04A ≤ cr.toNat ∨ cr.toNat = 0x037 ∨ cr.toNat = 0x028) →
      exec (.mfc k gd cr) s = .next ((s.begun k).trap k (encC 0x44 gd cr) 0x01 0 0))

/-- R210, R211, R209 (MTC): a cx register of the running channel, the stack limit with its low bits cleared, the local-memory base within
Table 7-4, the trap vector; a read-only number and a reserved value are illegal and write nothing. -/
def Claims.ControlRegisterWrites : Prop :=
  ∀ (s : State) (k : CoreIx) (ga : BitVec 5) (r : Run) (j : Fin 16), s.goes k → s.cores[k].run = some r → r.scout = false →
    let v := (s.seen k).rd ga
    let set (n : Nat) (f : Core → Core) : Prop := exec (.mtc k ga (BitVec.ofNat 10 n)) s = .next (s.did k f)
    let illegal (n : Nat) : Prop :=
      exec (.mtc k ga (BitVec.ofNat 10 n)) s = .next ((s.begun k).trap k (encC 0x45 ga (BitVec.ofNat 10 n)) 0x01 0 0)
    (Gives (.mtc k ga (BitVec.ofNat 10 (0x010 + j.val))) s fun t =>
      t.chans[r.ch].cx = s.chans[r.ch].cx.set j v ∧ t = { s.did k id with chans := t.chans } ∧
      ∀ n, n ≠ r.ch → t.chans[n] = s.chans[n]) ∧
    set 0x009 (fun c => { c with cr := { c.cr with spLim := v &&& 0xFFFFFFFC } }) ∧
    set 0x030 (fun c => { c with tr := { c.tr with tvec := v &&& 0xFFFC, en := v.getLsbD 0 } }) ∧
    set 0x034 (fun c => { c with tr := { c.tr with erpc := v &&& 0xFFFC } }) ∧
    ((v.toNat % 16 ≤ 10 → set 0x008 fun c => { c with cr := { c.cr with lmw := v.toNat % 16 } }) ∧ (10 < v.toNat % 16 → illegal 0x008)) ∧
    illegal 0x000 ∧ illegal 0x004 ∧ illegal 0x035 ∧ illegal 0x3FF

/-- R231, R243, R246 (SCOPY, SFILL, SCMP, SSEEK): one element alone, in data SRAM: it copies, fills, compares or seeks, and its pointers move
by their stride; as the last element of a repeat pair rc falls to 0 and execution goes on behind the pair. -/
def Claims.StringElements : Prop :=
  ∀ (s : State) (k : CoreIx) (sz : BitVec 2) (two down : Bool) (gv gd : BitVec 5) (c : Bool), s.goes k → s.cores[k].inScout = false → s.cores[k].sb.length < 8 → sz ≠ 3 →
    let b := s.seen k
    let n := 2 ^ sz.toNat
    let mem (a : Word) : Nat := ofLeBytes (b.dataBytes a.toNat n)
    let src := b.rd 26
    let dst := b.rd 27
    let e : Int := n
    let stride : Word := BitVec.ofInt 32 ((if two then 2 else 1) * (if down then -e else e))
    let ok (a : Word) : Prop := a.toNat < 0x20000 ∧ a.toNat % n = 0
    let stored (d : Core) (v : Nat) : Core := { d with sb := d.sb ++ [⟨dst.toNat, leBytes n v, 3⟩] }
    let res (x : Bool) : Word := if x then 1 else 0
    (ok src → ok dst → exec (.scopy k sz two down) s =
      .next (s.did k fun d => ((stored d (mem src)).wr 26 (src + stride)).wr 27 (dst + stride)).settle) ∧
    (ok dst → exec (.sfill k sz (stepField two down) gv) s =
      .next (s.did k fun d => (stored d ((b.rd gv).toNat % 2 ^ (8 * n))).wr 27 (dst + stride)).settle) ∧
    (ok src → ok dst → exec (.scmp k sz two down gd c) s =
      .next (s.did k fun d => ((d.wr 26 (src + stride)).wr 27 (dst + stride)).later gd (res (decide (mem src = mem dst) != c)) 3).settle) ∧
    (ok src → exec (.sseek k sz two down gv gd c) s =
      .next (s.did k fun d => (d.wr 26 (src + stride)).later gd (res (decide (mem src = (b.rd gv).toNat % 2 ^ (8 * n)) != c)) 3).settle)

/-- R215, R231, R245 (SCOPY, SCMP, SSEEK): an element whose source lies in cluster SRAM or local memory holds its core with the read outstanding; no
pointer has moved, and a cutoff may still abandon it. -/
def Claims.FarElementsHoldTheCore : Prop :=
  ∀ (s : State) (k : CoreIx) (sz : BitVec 2) (two down : Bool) (gv gd : BitVec 5) (c : Bool), s.goes k → s.cores[k].inScout = false → sz ≠ 3 →
    let src := (s.seen k).rd 26
    let dst := (s.seen k).rd 27
    let n := 2 ^ sz.toNat
    let far (a : Word) : Prop := (0x20000 ≤ a.toNat ∧ a.toNat < 0x28000) ∨ (0x40000000 ≤ a.toNat ∧ a.toNat < 0x80000000)
    let held (w : Word) : State := ((s.begun k).modCore k fun d => { d with hold := some (.elem w [] none), held := (s.now, 0) }).settle
    far src → src.toNat % n = 0 → dst.toNat < 0x20000 → dst.toNat % n = 0 →
    exec (.scopy k sz two down) s = .next (held (encS 0x4C sz (stepField two down) 0 0 false)) ∧
    exec (.scmp k sz two down gd c) s = .next (held (encS 0x4E sz (stepField two down) 0 gd c)) ∧
    exec (.sseek k sz two down gv gd c) s = .next (held (encS 0x4F sz (stepField two down) gv gd c))

/-- R243, R244 (SFILL as an element of a repeat pair): rc falls by one; while it stays above 0 the pair goes on with its next element, and at 0
execution continues behind the pair. -/
def Claims.RepeatPairElements : Prop :=
  ∀ (s : State) (k : CoreIx) (gv : BitVec 5) (r : Rpt), s.alive → s.cores[k].ready = true → s.cores[k].inScout = false →
    s.cores[k].rpt = some r → r.word = encS 0x4D 2 0 gv 0 false → s.cores[k].sb.length < 8 → s.cores[k].cr.lact = false →
    s.cores[k].slot = none → r.pc.toNat + 8 ≤ 0xFFFC →
    let c := s.cores[k]
    let dst := c.rd 27
    dst.toNat < 0x20000 → dst.toNat % 4 = 0 →
    let element (d : Core) : Core :=
      (({ d with sb := d.sb ++ [⟨dst.toNat, leBytes 4 (c.rd gv).toNat, 3⟩] } : Core).wr 27 (dst + 4)).wr 28 (c.rd 28 - 1)
    (c.rd 28 ≠ 1 → exec (.sfill k 2 0 gv) s =
      .next ((s.charge k 1).modCore k fun d => { element d with rpt := some { r with res := none } }).settle) ∧
    (c.rd 28 = 1 → exec (.sfill k 2 0 gv) s =
      .next ((s.charge k 1).modCore k fun d => { element d with rpt := none, pc := r.pc + 8 }).settle)

/-- R259 (DIV): quotient and remainder towards zero; by zero the largest value of the dividend's sign with DZ, and the dividend as the
remainder; the one overflow gives 0x7FFF_FFFF with OVF and remainder 0. The result lands after four further instructions. -/
def Claims.DivisionResults : Prop :=
  ∀ (s : State) (k : CoreIx) (gd ga gb : BitVec 5) (rem : Bool), s.goes k →
    let a := (s.seen k).rd ga
    let b := (s.seen k).rd gb
    let gives (q r : Word) (ovf dz : Bool) : Prop := exec (.div k gd ga gb rem) s = .next (s.did k fun d =>
      ({ d with cr := { d.cr with ovf := d.cr.ovf || ovf, dz := d.cr.dz || dz } } : Core).later gd (if rem then r else q) 4)
    (b ≠ 0 → ¬(a = 0x80000000 ∧ b = 0xFFFFFFFF) → gives (BitVec.sdiv a b) (BitVec.srem a b) false false) ∧
    (b = 0 → gives (if a.toInt < 0 then 0x80000000 else 0x7FFFFFFF) a false true) ∧
    (a = 0x80000000 → b = 0xFFFFFFFF → gives 0x7FFFFFFF 0 true false)

/-- R259 (ATAN2, SINCOS, MAG): the result lands after four further instructions; ATAN2 of the origin is 0 and sets UND; on the axes it lies
within 2^-26 turn of the exact angle; MAG lies within one LSB of the root of the sum of squares; SINCOS changes no flag. -/
def Claims.AngleAndMagnitudeResults : Prop :=
  ∀ (s : State) (k : CoreIx) (gd ga gb : BitVec 5) (cosine : Bool), s.goes k →
    let a := (s.seen k).rd ga
    let b := (s.seen k).rd gb
    (∃ v, exec (.atan2 k gd ga gb) s = .next (s.did k fun d =>
        ({ d with cr := { d.cr with und := d.cr.und || (decide (a = 0) && decide (b = 0)) } } : Core).later gd v 4) ∧
      (a = 0 → b = 0 → v = 0) ∧
      (a = 0 → 0 < b.toInt → -64 ≤ v.toInt ∧ v.toInt ≤ 64) ∧
      (b = 0 → 0 < a.toInt → 2 ^ 30 - 64 ≤ v.toInt ∧ v.toInt ≤ 2 ^ 30 + 64)) ∧
    (∃ v, exec (.sincos k gd ga gb cosine) s = .next (s.willWrite k gd v 4)) ∧
    (∃ v : Word, exec (.mag k gd ga gb) s = .next (s.willWrite k gd v 4) ∧
      ((v.toNat : Int) - 1) ^ 2 ≤ max 1 (a.toInt ^ 2 + b.toInt ^ 2) ∧ a.toInt ^ 2 + b.toInt ^ 2 ≤ ((v.toNat : Int) + 1) ^ 2)

/-- R257, R258 (PRD, PWR): outside the Scout lane PRD gives what a load of the port's register would give, four instructions on; PWR stages a
word at the port's PC_OUT_SET through the store buffer; a port number above 127 traps, and so does a PRD index above 8. -/
def Claims.PortInstructions : Prop :=
  ∀ (s : State) (k : CoreIx) (gd ga gb : BitVec 5) (ix : BitVec 4), s.goes k → s.cores[k].inScout = false →
    let p := (s.seen k).rd ga
    (∀ h : p.toNat < 128, ix.toNat ≤ 8 →
      let r := ((s.begun k).drainRegion k (.port 0)).regionRead (.needle k) (portAddr ⟨p.toNat, h⟩ (prdOfs ix.toNat) - 0x01000000)
      exec (.prd k gd ga ⟨gb, ix⟩) s = .next ((r.2.modCore k fun c => c.later gd r.1 4).retire k (encRRR 0x60 gd ga gb (ix.setWidth 10))).settle) ∧
    (128 ≤ p.toNat → ix.toNat ≤ 8 →
      exec (.prd k gd ga ⟨gb, ix⟩) s = .next ((s.begun k).trap k (encRRR 0x60 gd ga gb (ix.setWidth 10)) 0x04 0 p).settle) ∧
    (8 < ix.toNat → exec (.prd k gd ga ⟨gb, ix⟩) s = .next ((s.begun k).trap k (encRRR 0x60 gd ga gb (ix.setWidth 10)) 0x01 0 0).settle) ∧
    (p.toNat < 128 → s.cores[k].sb.length < 8 → (∃ r, s.cores[k].run = some r ∧ r.timed = true) →
      exec (.pwr k ga gb) s = .next (s.did k fun d => { d with sb := d.sb ++
        [⟨0x80000000 + (p.toNat / 8 * 0x10000 + 0x1000 + p.toNat % 8 * 0x200 + 0x10), leBytes 4 ((s.seen k).rd gb).toNat, 0⟩] }).settle) ∧
    (128 ≤ p.toNat → exec (.pwr k ga gb) s = .next ((s.begun k).trap k (encRRR 0x61 0 ga gb 0) 0x04 0 p).settle)

/-- R260, R261 (MZ, MEZZANINE_ANSWER, MZ_TIMEOUT): with an identified card and its domain up, MZ enters the free bus with its command word and
operands; the card's answer lands after four further instructions, an error answer traps with MZ_ERR and is counted, and no answer in time
traps with MZ_TMO and is counted. -/
def Claims.MezzanineTransactions : Prop :=
  ∀ (s : State) (k : CoreIx) (op : BitVec 4) (gd ga gb : BitVec 5) (func : BitVec 10) (r : Run), s.goes k → s.cores[k].run = some r →
    r.scout = false → s.mezz.id ≠ 0 → s.dom 7 = .on → s.mezz.bus = none →
    (∀ j : CoreIx, j ≠ k → s.cores[j].mzWaits = none) → (∀ n : ChIx, s.chans[n].sc.release = []) → s.mzPresent = true →
    let cmd : Word := op ++ func ++ BitVec.ofNat 4 k.val ++ (0 : BitVec 14)
    let w := encRRR (0x70 + op.toNat) gd ga gb func
    (Gives (.mz k op gd ga gb func) s fun t =>
      t.cores[k].hold = some (.mezz gd w cmd ((s.seen k).rd ga) ((s.seen k).rd gb) true) ∧ t.mezz.bus = some k ∧ t.mezz.last = k ∧
      t.out = .mezz cmd ((s.seen k).rd ga) ((s.seen k).rd gb) :: s.out ∧ t.cores[k].pc = s.cores[k].pc ∧ t.ports = s.ports ∧ t.lmem = s.lmem)

/-- R261: how a core's own transaction on the bus ends. -/
def Claims.MezzanineAnswers : Prop :=
  ∀ (s : State) (k : CoreIx) (gd : BitVec 5) (w cmd a b v : Word) (n : Nat), s.alive → s.mezz.bus = some k → s.mezz.rel = none →
    s.cores[k].hold = some (.mezz gd w cmd a b true) → (∀ j : CoreIx, j ≠ k → s.cores[j].mzWaits = none) →
    (∀ m : ChIx, s.chans[m].sc.release = []) → s.cores[k].slot = none → s.cores[k].cr.lact = false → s.cores[k].pc.toNat + 4 ≤ 0xFFFC →
    s.cores[k].tr.en = true → s.cores[k].tr.inTrap = false →
    (Gives (.mezzanineAnswer 0 v n) s fun t => t.mezz.bus = none ∧ t.mezz.err = s.mezz.err ∧ t.cores[k].hold = none ∧
      t.cores[k].fly = s.cores[k].fly ++ [⟨gd, v, 4⟩] ∧ t.cores[k].pc = s.cores[k].pc + 4 ∧ t.cores[k].g = s.cores[k].g) ∧
    (Gives (.mezzanineAnswer 1 v n) s fun t => t.mezz.bus = none ∧ t.mezz.err = satInc s.mezz.err ∧ t.cores[k].hold = none ∧
      t.cores[k].cr.mzErr = v.toNat % 2 ^ 16 ∧ t.cores[k].tr.cause = 0x08 ∧ t.cores[k].tr.ebad.toNat = v.toNat % 2 ^ 16 ∧
      t.cores[k].pc = s.cores[k].tr.tvec) ∧
    (Gives .mzTimeout s fun t => t.mezz.bus = none ∧ t.mezz.tmo = satInc s.mezz.tmo ∧ t.cores[k].hold = none ∧
      t.cores[k].tr.cause = 0x07 ∧ t.cores[k].tr.ebad = 0 ∧ t.cores[k].pc = s.cores[k].tr.tvec)

/-- R198, R202, R342 (RUN_CHAIN): the I/O command fetched first is taken. On a bound channel whose cluster is ready, by the state of the channel: idle,
the chain starts at ADDR; busy with room, the command waits as its newest pending command; busy with sixteen waiting, it ends with INVALID_FIELD, cause
QUEUE; fenced, with CHANNEL_FENCED. On an unbound channel it ends with cause BOUND, on a cluster that is not ready with cause NOT_READY. -/
def Claims.RunChainStartsOrWaits : Prop :=
  ∀ (s : State) (q : QpIx) (c : Cmd) (rest : List Cmd), s.alive → q ≠ 0 → s.qps[q].waiting = c :: rest → c.opc = 0x01 → s.fetchedFirst c = true →
    let n : ChIx := finOf 256 c.target
    let x := s.chans[n]
    let ready : Prop := x.bind.bound = true ∧ s.nclReady (clusterOf x.bind.core) = true
    let busy : Prop := x.state = .active ∨ x.state = .posting ∨ x.state = .suspended ∨ x.state = .check
    let gives (P : State → Prop) : Prop := Gives (.runChain q) s fun t => t.qps[q].waiting = rest ∧ P t
    let ends (status detail result : Nat) : Prop := gives fun t => t.ended c status detail result ∧ t = { s with qps := t.qps }
    (ready → x.state = .idle → gives fun t => t.chans[n].state = .active ∧ t.chans[n].next = c.addr ∧ t.chans[n].cur = some c ∧
      t.chans[n].depth = 0 ∧ t.chans[n].ent = none ∧ t.chans[n].op = none ∧ t.chans[n].cx = x.cx ∧ t.chans[n].pend = x.pend ∧
      (∀ m, m ≠ n → t.chans[m] = s.chans[m]) ∧ t = { s with qps := t.qps, chans := t.chans, fan := t.fan }) ∧
    (ready → busy → x.pend.length < 16 → gives fun t => t.chans[n] = { x with pend := x.pend ++ [c] } ∧
      (∀ m, m ≠ n → t.chans[m] = s.chans[m]) ∧ t = { s with qps := t.qps, chans := t.chans }) ∧
    (ready → busy → 16 ≤ x.pend.length → ends 0x30 0x07 0) ∧
    (ready → x.state = .fenced → ends 0x21 0 0) ∧
    (x.bind.bound = false → ends 0x30 0x06 0) ∧
    (x.bind.bound = true → s.nclReady (clusterOf x.bind.core) = false → ends 0x30 0x04 (8 + (clusterOf x.bind.core).val))

/-- R199 (RESUME_CHANNEL), by the state of the channel: a suspended one runs on; one in CHECK turns idle or starts its oldest pending chain; a running one
has its resume pending, or refuses a second with INVALID_FIELD, cause STATE, as an idle one does; a fenced one ends it with CHANNEL_FENCED. -/
def Claims.ResumeChannelEffects : Prop :=
  ∀ (s : State) (q : QpIx) (c d : Cmd) (rest l : List Cmd), s.alive → q ≠ 0 → s.qps[q].waiting = c :: rest → c.opc = 0x02 → s.fetchedFirst c = true →
    let n : ChIx := finOf 256 c.target
    let x := s.chans[n]
    let runs : Prop := x.state = .active ∨ x.state = .posting
    let gives (P : State → Prop) : Prop := Gives (.resumeChannel q) s fun t => t.qps[q].waiting = rest ∧ (∀ m, m ≠ n → t.chans[m] = s.chans[m]) ∧ P t
    let ends (status detail result : Nat) : Prop := gives fun t => t.ended c status detail result ∧ t = { s with qps := t.qps }
    (x.state = .suspended → gives fun t => t.chans[n].state = .active ∧ t.chans[n].next = x.next ∧ t.ended c 0 0 0 ∧
      t = { s with qps := t.qps, chans := t.chans, fan := t.fan }) ∧
    (x.state = .check → x.pend = [] → gives fun t => t.chans[n].state = .idle ∧ t.chans[n].cur = none ∧ t.chans[n].cause = x.cause ∧ t.ended c 0 0 0 ∧
      t = { s with qps := t.qps, chans := t.chans }) ∧
    (x.state = .check → x.pend = d :: l → gives fun t => t.chans[n].state = .active ∧ t.chans[n].cur = some d ∧ t.chans[n].next = d.addr ∧
      t.chans[n].pend = l ∧ t.ended c 0 0 0 ∧ t = { s with qps := t.qps, chans := t.chans, fan := t.fan }) ∧
    (runs → x.resPend = false → gives fun t => t.chans[n] = { x with resPend := true } ∧ t.ended c 0 0 0 ∧ t = { s with qps := t.qps, chans := t.chans }) ∧
    (runs → x.resPend = true → ends 0x30 0x05 0) ∧
    (x.state = .idle → ends 0x30 0x05 0) ∧
    (x.state = .fenced → ends 0x21 0 0)

/-- R200, R290, R359 (CLEAR_CHANNEL), by the state of the channel: a suspended one and one in CHECK halt at once: it turns idle, its running and pending
commands complete with CHANNEL_CLEARED, and the clear completes with OK and their number; an idle one completes it with 0; a fenced one drops its pending
commands; a channel whose routine runs or whose post is outstanding halts later, and the clear waits for that in the foreground. -/
def Claims.ClearChannelHalts : Prop :=
  ∀ (s : State) (c : Cmd) (rest : List Cmd), s.alive → s.qps[(0 : QpIx)].waiting = c :: rest → c.opc = 0x89 → s.hq.running = none →
    let n : ChIx := finOf 256 c.target
    let x := s.chans[n]
    let gives (P : State → Prop) : Prop := Gives .clearChannel s fun t => t.qps[(0 : QpIx)].waiting = rest ∧ P t
    let frame (t : State) : Prop := x.sc.run = .none → t = { s with qps := t.qps, chans := t.chans } ∧ ∀ m, m ≠ n → t.chans[m] = s.chans[m]
    (x.state = .suspended ∨ x.state = .check → gives fun t => t.chans[n].state = .idle ∧ t.chans[n].cur = none ∧ t.chans[n].pend = [] ∧
      t.chans[n].halting = false ∧ t.chans[n].cx = x.cx ∧ (∀ d ∈ x.cur.toList ++ x.pend, t.ended d 0x20 0 0) ∧
      t.ended c 0 0 (x.cur.toList.length + x.pend.length) ∧ t.hq.running = none ∧ frame t) ∧
    (x.state = .idle → gives fun t => t.chans[n].state = .idle ∧ t.chans[n].cx = x.cx ∧ t.ended c 0 0 0 ∧ frame t) ∧
    (x.state = .fenced → gives fun t => (∀ d ∈ x.pend, t.ended d 0x20 0 0) ∧ t.ended c 0 0 x.pend.length ∧ t.chans[n] = { x with pend := [] } ∧
      t = { s with qps := t.qps, chans := t.chans } ∧ ∀ m, m ≠ n → t.chans[m] = s.chans[m]) ∧
    (x.state = .posting ∨ (x.state = .active ∧ (x.op.bind (·.core)).isSome = true) → gives fun t =>
      t.chans[n].state = x.state ∧ t.chans[n].halting = true ∧ t.chans[n].clear = some c ∧ t.chans[n].cur = x.cur ∧ t.chans[n].pend = x.pend ∧
      t.hq.running = some c ∧ (∀ p : QpIx, t.qps[p].done = s.qps[p].done))

/-- R198, R200, R362 (CHANNEL_HALT): a halting channel that has come to its boundary turns idle: under a clear its running and pending commands complete
with CHANNEL_CLEARED and the clear with OK and their number; after a reset only what runs is cleared, and the oldest chain held since then starts. One that
has not come to its boundary goes on. -/
def Claims.HaltsAtTheBoundary : Prop :=
  ∀ (s : State) (n : ChIx) (c d : Cmd) (l : List Cmd), s.alive →
    let x := s.chans[n]
    let there : Prop := x.halting = true ∧ x.state = .active ∧ x.ent = none ∧ x.op = none ∧ x.cont = none
    let gives (P : State → Prop) : Prop := Gives (.channelHalt n) s fun t =>
      t.chans[n].halting = false ∧ t.chans[n].clear = none ∧ t.chans[n].cx = x.cx ∧ (∀ d ∈ x.cur, t.ended d 0x20 0 0) ∧
      (∀ m, m ≠ n → t.chans[m] = s.chans[m]) ∧ P t
    (there → x.clear = some c → gives fun t => t.chans[n].state = .idle ∧ t.chans[n].cur = none ∧ t.chans[n].pend = [] ∧
      (∀ d ∈ x.pend, t.ended d 0x20 0 0) ∧ t.ended c 0 0 (x.cur.toList.length + x.pend.length) ∧ t.hq.running = none ∧
      t = { s with qps := t.qps, chans := t.chans, hq := { s.hq with running := none } }) ∧
    (there → x.clear = none → x.pend = [] → gives fun t => t.chans[n].state = .idle ∧ t.chans[n].cur = none ∧ t.chans[n].pend = [] ∧
      t = { s with qps := t.qps, chans := t.chans }) ∧
    (there → x.clear = none → x.pend = d :: l → gives fun t => t.chans[n].state = .active ∧ t.chans[n].cur = some d ∧ t.chans[n].next = d.addr ∧
      t.chans[n].pend = l ∧ t = { s with qps := t.qps, chans := t.chans, fan := t.fan }) ∧
    (¬there → exec (.channelHalt n) s = .next s)

/-- R170, R190 (CCE_FETCH): the sixteen bytes at the channel's next address, from local memory or as host memory returned them, become its
entry; a failed host read, a bad address and an unknown operation are checks. -/
def Claims.EntriesAreRead : Prop :=
  ∀ (s : State) (n : ChIx) (b : List Byte), s.alive → s.chans[n].reads = true → s.chans[n].op = none → s.chans[n].next % 16 = 0 →
    let x := s.chans[n]
    let e := parseCce b
    let plain : Prop := e.op = 0x01 ∨ e.op = 0x06
    let got (t : State) : Prop :=
      t = s.modChan n fun x => { x with cce := x.next, next := x.next + 16, ent := some e }
    (b.length = 16 → leAt b 0 1 = e.op ∧ leAt b 8 8 = e.addr) ∧
    (plain → e.fault false false = 0 → b.length = 16 → 2 ^ 63 ≤ x.next → Gives (.cceFetch n (.ok b)) s got) ∧
    (plain → e.fault false false = 0 → x.next + 16 ≤ 0xE0000000 → b = Memory.read s.lmem x.next 16 →
      ∀ r, r ≠ .ecc → Gives (.cceFetch n r) s got) ∧
    (2 ^ 63 ≤ x.next → exec (.cceFetch n .refused) s = .next ((s.modChan n fun x => { x with cce := x.next }).check n 0x06 0)) ∧
    (x.next + 16 ≤ 0xE0000000 → exec (.cceFetch n .ecc) s = .next ((s.modChan n fun x => { x with cce := x.next }).check n 0x0F 0)) ∧
    (e.op = 0x00 ∨ 0x81 ≤ e.op → b.length = 16 → 2 ^ 63 ≤ x.next →
      exec (.cceFetch n (.ok b)) s = .next ((s.modChan n fun x => { x with cce := x.next }).check n 0x01 0))

/-- R172, R187, R188 (CCE_NOP, LDCX, JUMP, BRCX, WAITF, WAITF_END): control entries with NEXT go on behind themselves, LDCX with its register
loaded; JUMP goes on at its target; BRCX counts its register down and goes on at the target while it is not exhausted; WAITF waits for its
DISPATCH points and goes on behind itself. -/
def Claims.ControlEntries : Prop :=
  ∀ (s : State) (n : ChIx) (e : Cce), e.flags = 0x01 ∨ e.flags = 0x00 →
    let x := s.chans[n]
    let k : Fin 16 := finOf 16 e.count
    let cx (y : Chan) (v : Word) : Chan := { y with cx := y.cx.set k v }
    let goes (c : Instr) (f : Chan → Chan) : Prop := exec c s = .next (s.modChan n f)
    (e.flags = 0x01 → s.atEntry n 0x01 e → goes (.cceNop n) fun y => y.passed y.next) ∧
    (e.flags = 0x01 → s.atEntry n 0x06 e → goes (.ldcx n) fun y => (cx y (BitVec.ofNat 32 e.addr)).passed y.next) ∧
    (e.flags = 0x00 → s.atEntry n 0x03 e → e.addr ≠ x.cce → goes (.jump n) fun y => y.passed e.addr) ∧
    (e.flags = 0x00 → s.atEntry n 0x07 e → e.addr ≠ x.cce →
      (x.cx[k] = 0 → goes (.brcx n) fun y => y.passed y.next) ∧
      (x.cx[k] = 1 → goes (.brcx n) fun y => (cx y 0).passed y.next) ∧
      (2 ≤ x.cx[k].toNat → goes (.brcx n) fun y => (cx y (x.cx[k] - 1)).passed e.addr)) ∧
    (s.atEntry n 0x02 e → goes (.waitf n) fun y => { y with wait := .waitf, waitN := max 1 e.count, ctl := 0 }) ∧
    (e.flags = 0x01 → s.alive → x.ent = some e → x.state = .active → x.wait = .waitf → x.waitN = 0 → x.halting = false → x.post.en = false →
      goes (.waitfEnd n) fun y => { y.boundary with state := .active, wait := .executing, ent := none, op := none, cont := none, next := y.next })

/-- R175, R203 (the end of a chain): an entry without NEXT that is no flow entry ends the chain: its command completes with OK and the channel
turns idle. -/
def Claims.ChainEndCompletesTheCommand : Prop :=
  ∀ (s : State) (n : ChIx) (e : Cce) (c : Cmd), s.atEntry n 0x01 e → e.flags = 0x00 → s.chans[n].cur = some c → s.chans[n].pend = [] →
    s.chans[n].sc.hitCmd = false →
    Gives (.cceNop n) s fun t => t.ended c 0 0 0 ∧ t.chans[n].state = .idle ∧ t.chans[n].cur = none ∧ t.chans[n].ent = none ∧
      t.chans[n].cx = s.chans[n].cx ∧ (∀ m, m ≠ n → t.chans[m] = s.chans[m]) ∧ (∀ p, p ≠ c.q → t.qps[p] = s.qps[p]) ∧
      t = { s with qps := t.qps, chans := t.chans }

/-- R191, R192, R193 (CALLC, RETC): a call saves the return address, the mask and the masked cx registers in the channel's frame in local
memory and goes on at its target one level deeper; a return restores the saved registers but those it masks, and goes on at the saved
address. -/
def Claims.CallsSaveAndReturnsRestore : Prop :=
  ∀ (s : State) (n : ChIx) (e : Cce), s.canonical → e.flags = 0x00 →
    let x := s.chans[n]
    let frame (d : Nat) : Nat := s.blk.save.toNat + n.val * 0x400 + d * 0x80
    (s.atEntry n 0x04 e → e.addr ≠ x.cce → x.depth < 8 → x.next < 2 ^ 64 → Gives (.callc n false) s fun t =>
      let a := frame x.depth
      Memory.num t.lmem a 8 = x.next ∧ Memory.num t.lmem (a + 8) 2 = e.mask.toNat ∧
      (∀ k : Fin 16, e.mask.getLsbD k.val = true → Memory.num t.lmem (a + 0x40 + 4 * k.val) 4 = x.cx[k].toNat) ∧
      (∀ i, i < a ∨ a + 0x80 ≤ i → Memory.get t.lmem i = Memory.get s.lmem i) ∧
      t.chans[n] = { x.passed e.addr with depth := x.depth + 1 } ∧ (∀ m, m ≠ n → t.chans[m] = s.chans[m]) ∧ t.qps = s.qps ∧ t.ports = s.ports) ∧
    (s.atEntry n 0x05 e → 1 ≤ x.depth → Gives (.retc n false) s fun t =>
      let a := frame (x.depth - 1)
      let m := (BitVec.ofNat 16 (Memory.num s.lmem (a + 8) 2)) &&& ~~~e.mask
      (∀ k : Fin 16, t.chans[n].cx[k] = if m.getLsbD k.val then BitVec.ofNat 32 (Memory.num s.lmem (a + 0x40 + 4 * k.val) 4) else x.cx[k]) ∧
      t.chans[n] = { x.passed (Memory.num s.lmem a 8) with depth := x.depth - 1, cx := t.chans[n].cx } ∧
      t = { s with chans := t.chans } ∧ ∀ m, m ≠ n → t.chans[m] = s.chans[m])

/-- R176, R177 (EXEC_W, EXEC_R): a gathered operation with a valid slot and an allowed data area becomes ready, EXEC_W with its bytes as local
memory holds them or host memory returned them, a timed one's between DISPATCH and the STAGE deadline alone (R180); an area above 16 KiB is a check, and
so is an empty slot of the bound core (R178). -/
def Claims.DeviceOperationsBecomeReady : Prop :=
  ∀ (s : State) (n : ChIx) (o : Op) (e : Cce) (g : Seg) (b : List Byte), s.alive → s.chans[n].gathering = some (o, e) → o.segs = [g] →
    let ready (t : State) (data : List Byte) : Prop :=
      t = { s.modChan n fun x => { x with ctl := 0, op := some { o with ready := true, data := data, since := s.blk.order } } with
            blk := { s.blk with order := s.blk.order + 1 } }
    let slot := s.cores[s.chans[n].bind.core].slots[(finOf 32 o.op : Fin 32)]
    let slotOk : Prop := slot.valid = true ∨ s.chans[n].bind.anyCore = true
    let open_ : Prop := slot.timed = false ∨ s.tick.phase = .dispatch ∨ s.tick.phase = .input
    (o.op < 0x60 → open_ → g.count ≤ 16384 → slotOk → 2 ^ 63 ≤ g.addr → b.length = g.count → Gives (.execW n (.ok b)) s fun t => ready t b) ∧
    (o.op < 0x60 → open_ → g.count ≤ 16384 → slotOk → g.addr + g.count ≤ 0xE0000000 →
      Gives (.execW n (.ok [])) s fun t => ready t (Memory.read s.lmem g.addr g.count)) ∧
    (0x60 ≤ o.op → g.count ≤ 16384 → slotOk → g.addr + g.count ≤ 0xE0000000 ∨ 2 ^ 63 ≤ g.addr → Gives (.execR n) s fun t => ready t []) ∧
    (g.count ≤ 16384 → slot.valid = false → s.chans[n].bind.anyCore = false → g.addr + g.count ≤ 0xE0000000 →
      (o.op < 0x60 → exec (.execW n (.ok b)) s = .next (s.check n 0x07 0)) ∧ (0x60 ≤ o.op → exec (.execR n) s = .next (s.check n 0x07 0))) ∧
    (o.op < 0x60 → slot.timed = true → s.tick.phase ≠ .dispatch → s.tick.phase ≠ .input → g.count ≤ 16384 → slotOk → g.addr + g.count ≤ 0xE0000000 →
      exec (.execW n (.ok b)) s = .next s) ∧
    (o.op < 0x60 → 16384 < g.count → exec (.execW n (.ok b)) s = .next (s.check n 0x08 0)) ∧
    (0x60 ≤ o.op → 16384 < g.count → exec (.execR n) s = .next (s.check n 0x08 0))

/-- R205, R515 (CH_POST_CFG): a written configuration restarts the ring; a reserved SIZE sets CFG_REJ, a running channel WR_BUSY, and then
nothing else changes. -/
def Claims.PostConfigurationWrites : Prop :=
  ∀ (s : State) (a : Agent) (n : ChIx) (v : Word), s.alive →
    let size := v.toNat % 16
    let free : Prop := s.chans[n].state = .idle ∨ s.chans[n].state = .suspended ∨ s.chans[n].state = .check ∨ s.chans[n].state = .fenced
    (4 ≤ size → size ≤ 12 → free → exec (.chPostCfg a n v) s = .next (s.modChan n fun x =>
      { x with post := { x.post with en := v.getLsbD 31, size := size, head := 0, seq := 0 } })) ∧
    (4 ≤ size → size ≤ 12 → ¬free → exec (.chPostCfg a n v) s = .next { s with blk := { s.blk with chBusy := true } }) ∧
    (size < 4 ∨ 12 < size → exec (.chPostCfg a n v) s = .next { s with blk := { s.blk with chRej := true } })

/-- R179, R182, R209, R263 (ROUTINE_START): the core starts the operation that ranks first, the lowest free core of a cluster one of ANY_CORE: entry registers, data window, program counter, and
every control and trap register at its reset value. -/
def Claims.RoutinesStartWithTheirEntryState : Prop :=
  ∀ (s : State) (k : CoreIx) (n : ChIx) (o : Op), s.alive → s.bestFor k = some n → s.chans[n].op = some o →
    (s.chans[n].bind.anyCore = true → ∀ j : CoreIx, j < k → clusterOf j = clusterOf k → s.coreTakes j n = false) →
    s.dom (1 + (clusterOf k).val) = .on → s.coreTakes k n = true → (s.opSlot k o).valid = true →
    let sl := s.opSlot k o
    let win : Nat := if s.cores[k].winB then 0x1C000 else 0x18000
    Gives (.routineStart k) s fun t =>
      let d := t.cores[k]
      d.pc = sl.entry ∧ d.rd 1 = BitVec.ofNat 32 win ∧ d.rd 2 = BitVec.ofNat 32 (o.segs.map (·.count)).sum ∧ d.rd 3 = BitVec.ofNat 32 n.val ∧
      d.rd 4 = BitVec.ofNat 32 o.op ∧ d.rd 5 = BitVec.ofNat 32 s.tick.edge ∧ d.rd 31 = 0x00018000 ∧
      (∀ r : BitVec 5, 6 ≤ r.toNat → r.toNat < 31 → d.rd r = 0) ∧ d.cr = {} ∧ d.tr = {} ∧ d.fly = [] ∧ d.winB = !s.cores[k].winB ∧
      (s.canonical → o.op < 0x60 → Memory.read d.dsram win o.data.length = o.data) ∧ d.isram = s.cores[k].isram ∧ d.slots = s.cores[k].slots ∧
      (∃ r, d.run = some r ∧ r.ch = n ∧ r.timed = sl.timed ∧ r.scout = false) ∧
      t.chans[n] = { s.chans[n] with wait := .executing, op := some { o with core := some k } } ∧
      t = { s with cores := s.cores.set k d, chans := t.chans } ∧ ∀ m, m ≠ n → t.chans[m] = s.chans[m]

/-- R264, R265, R266 (SCOUT_RUN): a granted run of a free core with a valid Scout slot starts there: an empty commit buffer, the dependency
ports, and the entry registers of a Scout run. -/
def Claims.ScoutRunsStart : Prop :=
  ∀ (s : State) (k : CoreIx) (n : ChIx), s.alive →
    ((allFin 256).find? fun m => s.chans[m].sc.run == .waiting true && s.chans[m].sc.core == k) = some n →
    s.coreFree k = true → s.dom 5 = .on →
    let x := s.chans[n].sc
    let sl := s.cores[k].slots[(finOf 32 (fld x.ctrlAct 20 16) : Fin 32)]
    (sl.valid = true → Gives (.scoutRun k) s fun t =>
      let d := t.cores[k]
      d.pc = sl.entry ∧ d.inScout = true ∧ d.rd 1 = 0 ∧ d.rd 2 = BitVec.ofNat 32 (depPorts x.depAct).length ∧ d.rd 3 = BitVec.ofNat 32 n.val ∧
      d.rd 4 = 0 ∧ d.rd 5 = BitVec.ofNat 32 (s.tick.at (16 * s.tick.len)) ∧ d.rd 31 = 0x00018000 ∧ d.cr = {} ∧ d.tr = {} ∧ d.dsram = s.cores[k].dsram ∧
      t.chans[n].sc.run = .running ∧ t.chans[n].sc.buf = [] ∧ t.chans[n].sc.deps = depPorts x.depAct ∧ t.chans[n].cx = s.chans[n].cx ∧
      (∀ m, m ≠ n → t.chans[m] = s.chans[m]) ∧ t.lmem = s.lmem ∧ t.csram = s.csram) ∧
    (sl.valid = false → exec (.scoutRun k) s = .next (s.modChan n fun y => { y with sc := { y.sc with run := .aborted 0xF4 } }))

/-- R297, R337, R186 (MOVE_RUN, MOVE): a program starts at its address on a move channel that is idle or in CHECK, for the I/O command fetched first on
an unbound channel, or for a granted channel's entry on its bound one; a bound channel refuses the command with cause BOUND, a fenced one ends it with
CHANNEL_FENCED, a busy one refuses it with STATE, and before the MOVE bit it ends with NOT_READY; the entry of a granted channel waits for its move channel
and the MOVE bit, and an entry with no move channel or a fenced one is a check. -/
def Claims.MoveProgramsStart : Prop :=
  ∀ (s : State) (q : QpIx) (c : Cmd) (rest : List Cmd) (n : ChIx) (e : Cce) (m : McIx), s.alive →
    let x := s.mcs[m]
    let free : Prop := x.state = .idle ∨ x.state = .check
    let started (x : Mc) (o : McOwner) (a : Nat) : Mc :=
      { x with state := .ready, pc := a, owner := o, lact := false, lc := 0, ctl := 0, stop := false, stopHost := false, stopDom := none, wait := .none, desc := none
               wrTs := none, unacked := false, cut := false, cause := if x.state = .check then 0 else x.cause }
    let gives (P : State → Prop) : Prop := Gives (.moveRun q) s fun t => t.qps[q].waiting = rest ∧ P t
    let ends (status detail result : Nat) : Prop := gives fun t => t.ended c status detail result ∧ t = { s with qps := t.qps }
    (q ≠ 0 → s.qps[q].waiting = c :: rest → c.opc = 0x03 → s.fetchedFirst c = true → finOf 64 c.target = m →
      (x.bound = none → x.fenced = false → free → s.glb.move = true → gives fun t => t.mcs[m] = started x (.cmd c) c.addr ∧
        (∀ j, j ≠ m → t.mcs[j] = s.mcs[j]) ∧ t = { s with qps := t.qps, mcs := t.mcs }) ∧
      (x.bound.isSome = true → ends 0x30 0x06 0) ∧
      (x.bound = none → x.fenced = true → ends 0x21 0 0) ∧
      (x.bound = none → x.fenced = false → ¬free → ends 0x30 0x05 0) ∧
      (x.bound = none → x.fenced = false → free → s.glb.move = false → ends 0x30 0x04 2)) ∧
    (s.atEntry n 0x80 e → s.chans[n].bind.mc = some m → x.fenced = false → s.chans[n].granted = true →
      (s.glb.move = true → free → Gives (.moveEntry n) s fun t => t.mcs[m] = started x (.chan n) e.addr ∧
        t.chans[n] = { s.chans[n] with wait := .move, ctl := 0 } ∧ (∀ j, j ≠ m → t.mcs[j] = s.mcs[j]) ∧ t = { s with chans := t.chans, mcs := t.mcs }) ∧
      (s.glb.move = false ∨ ¬free → exec (.moveEntry n) s = .next (s.modChan n fun y => { y with wait := .move }))) ∧
    (s.atEntry n 0x80 e → s.chans[n].bind.mc = none ∨ (s.chans[n].bind.mc = some m ∧ x.fenced = true) →
      exec (.moveEntry n) s = .next (s.check n 0x0C 0))

/-- R294, R295, R318 (MOVE_CHANNEL_SERVE): a free lane serves a ready channel of its own; a curtailed bulk lane serves none. -/
def Claims.LanesServeReadyChannels : Prop :=
  ∀ (s : State) (bulk : Bool), s.alive → s.served bulk = false →
    ((bulk = true → s.bulkHeld = false) → (∃ m : McIx, s.mcs[m].bulk = bulk ∧ s.mcs[m].state = .ready) →
      Gives (.moveChannelServe bulk) s fun t => ∃ m : McIx, s.mcs[m].bulk = bulk ∧ s.mcs[m].state = .ready ∧
        t.mcs[m] = { s.mcs[m] with state := .running } ∧ (∀ j, j ≠ m → t.mcs[j] = s.mcs[j]) ∧
        (if bulk then t.blk.mvLast = (s.blk.mvLast.1, m) else t.blk.mvLast = (m, s.blk.mvLast.2)) ∧ t = { s with mcs := t.mcs, blk := t.blk }) ∧
    (bulk = true → s.bulkHeld = true → exec (.moveChannelServe bulk) s = .next s)

/-- R299, R301, R302, R317 (DESCRIPTOR_FETCH): at a descriptor boundary of a served channel the 32 bytes at MC_PC become the descriptor; a failed read, an
address that is no program address, a reserved opcode and a reserved field end the program in CHECK with their causes; anywhere else nothing is read. -/
def Claims.DescriptorsAreRead : Prop :=
  ∀ (s : State) (m : McIx) (b : List Byte), s.alive →
    let x := s.mcs[m]
    let begins : Prop := s.mcBegins m = true
    let known : Prop := 1 ≤ dOp b ∧ dOp b ≤ 5
    let host : Prop := 2 ^ 63 ≤ x.pc ∧ x.pc < 2 ^ 64 ∧ x.pc % 32 = 0
    let here : Prop := x.pc + 32 ≤ 0xE0000000 ∧ x.pc % 32 = 0
    let reads (r : ReadRes) : Prop := (host ∧ r = .ok b ∧ b.length = 32) ∨ (here ∧ r ≠ .ecc ∧ b = Memory.read s.lmem x.pc 32)
    (begins → known → descField x b = false → ∀ r, reads r → exec (.descriptorFetch m r) s = .next (s.modMc m fun x => { x with desc := some b })) ∧
    (begins → ¬known → ∀ r, reads r → exec (.descriptorFetch m r) s = .next (s.mcCheck m 0x01)) ∧
    (begins → known → descField x b = true → ∀ r, reads r → exec (.descriptorFetch m r) s = .next (s.mcCheck m 0x02)) ∧
    (begins → x.pc % 32 ≠ 0 → ∀ r, exec (.descriptorFetch m r) s = .next (s.mcCheck m 0x03)) ∧
    (begins → host → exec (.descriptorFetch m .refused) s = .next (s.mcCheck m 0x0A)) ∧
    (begins → here → exec (.descriptorFetch m .ecc) s = .next (s.mcCheck m 0x0B)) ∧
    (¬begins → ∀ r, exec (.descriptorFetch m r) s = .next s) ∧
    (dOp b = 5 → (∀ i, 1 ≤ i → i < 32 → b.getD i 0 = 0) → descField x b = false)

/-- R319: a move check stops the program with its cause, reports it, and ends the command that started it with MOVE_CHECK, or the chain whose entry it
is with the check MOVE_FAULT. -/
def Claims.MoveChecksEndTheProgram : Prop :=
  ∀ (s : State) (m : McIx) (cause : Nat),
    let t := s.mcCheck m cause
    t.mcs[m].state = .check ∧ t.mcs[m].cause = cause ∧ t.mcs[m].desc = none ∧ t.mcs[m].owner = .none ∧ t.mcs[m].pc = s.mcs[m].pc ∧
    (∀ j, j ≠ m → t.mcs[j] = s.mcs[j]) ∧ t.lmem = s.lmem ∧ t.ports = s.ports ∧ t.cores = s.cores ∧
    (∀ c, s.mcs[m].owner = .cmd c → t.ended c 0x12 cause 0 ∧ t.chans = s.chans) ∧
    (∀ n, s.mcs[m].owner = .chan n → s.chans[n].halting = false → t.chans[n].state = .check ∧ t.chans[n].cause = 0x21 ∧ t.chans[n].detail = cause ∧
      t.chans[n].cur = none ∧ ∀ c, s.chans[n].cur = some c → t.ended c 0x12 cause 0) ∧
    (s.mcs[m].owner = .none → t = { s with mcs := t.mcs, prop := t.prop })

/-- R303, R304 to R310, R350, R446 (MOVE_DESCRIPTOR): a MOVE that meets no check, whose domains are up and whose destination does not wait in D3hot makes
its transfer, whatever its two sides, its rings and its cursors; one that meets a check ends the program with that cause; one whose destination waits
goes on waiting. -/
def Claims.MovesAreMade : Prop :=
  ∀ (s : State) (m : McIx) (b : List Byte) (r : MoveData), s.alive → s.mcDesc m 0x01 = some b →
    let z := s.mcs[m]
    let n := leAt b 4 4
    let x := (z.sides b).1
    let y := (z.sides b).2
    let up : Prop := (∀ d, x.at_.domain = some d ∨ y.at_.domain = some d → s.dom d = .on)
    let given : Prop := (∃ a, x.at_ = .host a) →
      (r.err = none ∧ r.hostBytes.length = n) ∨ ∃ e k, r.err = some (e, k) ∧ min k n ≤ r.hostBytes.length
    (moveFault z.bulk x y n = 0 → up → s.hostWaits z.cut y.at_ = false → given → exec (.moveDescriptor m r) s = .next (s.moveBytes m b x y n r).settle) ∧
    (moveFault z.bulk x y n = 0 → up → s.hostWaits z.cut y.at_ = true → exec (.moveDescriptor m r) s = .next s.pmeDue) ∧
    (moveFault z.bulk x y n ≠ 0 → exec (.moveDescriptor m r) s = .next (s.mcCheck m (moveFault z.bulk x y n)))

/-- R303, R306, R310, R446 (MOVE_DESCRIPTOR): a linear MOVE between local memory areas copies its bytes as they stood, overlap or not; before an
uncorrectable error it has written the whole 64 B bursts that came before it, from the upper end where the copy runs in descending order (log entry 101),
and the program ends in CHECK; a host destination receives the bytes as a host write, or nothing of a program that a host reset stops (R362); every other byte of local memory is as before, the next descriptor
follows, and a side that uses its cursor moves it on. -/
def Claims.MovesCopyBytes : Prop :=
  ∀ (s : State) (m : McIx) (b : List Byte) (src n : Nat), s.alive → s.canonical → s.mcDesc m 0x01 = some b →
    let z := s.mcs[m]
    leAt b 4 4 = n → n ≤ 4096 ∨ z.bulk = true → src < 0xE0000000 → src + n ≤ 0xE0000000 →
    let dst := leAt b 16 8
    let data := Memory.read s.lmem src n
    let done (z : Mc) : Mc :=
      { z with pc := z.pc + 32, desc := none, lastLen := n, ctl := 0, wrTs := if n = 0 then z.wrTs else some s.now, unacked := z.unacked || decide (n ≠ 0) }
    let plain : Prop := leAt b 1 1 = 0 ∧ leAt b 8 8 = src
    (plain → dst < 0xE0000000 → dst + n ≤ 0xE0000000 → Gives (.moveDescriptor m ⟨[], none⟩) s fun t =>
      Memory.read t.lmem dst n = data ∧ (∀ i, i < dst ∨ dst + n ≤ i → Memory.get t.lmem i = Memory.get s.lmem i) ∧
      t.mcs[m] = done z ∧ t.qps = s.qps ∧ t.csram = s.csram) ∧
    (plain → dst < 0xE0000000 → dst + n ≤ 0xE0000000 → ∀ j ≤ n, Gives (.moveDescriptor m ⟨[], some (.ecc, j)⟩) s fun t =>
      let k := j / 64 * 64
      let i0 := if src < dst ∧ dst < src + n then n - k else 0
      Memory.read t.lmem (dst + i0) k = (data.drop i0).take k ∧
      (∀ i, i < dst + i0 ∨ dst + i0 + k ≤ i → Memory.get t.lmem i = Memory.get s.lmem i) ∧
      t.mcs[m].state = .check ∧ t.mcs[m].cause = 0x0B ∧ t.mcs[m].lastLen = k) ∧
    (plain → 2 ^ 63 ≤ dst → dst + n ≤ 2 ^ 64 → s.hq.issues = true → s.hq.d3 = false → z.cut = false → Gives (.moveDescriptor m ⟨[], none⟩) s fun t =>
      t.out = .hostWrite (dst - 2 ^ 63) data :: s.out ∧ t.lmem = s.lmem ∧ t.mcs[m] = done z) ∧
    (plain → 2 ^ 63 ≤ dst → dst + n ≤ 2 ^ 64 → z.cut = true → Gives (.moveDescriptor m ⟨[], none⟩) s fun t =>
      t.out = s.out ∧ t.lmem = s.lmem ∧ t.mcs[m] = done z) ∧
    (leAt b 1 1 = 0xC0 → z.src.toNat = src → z.dst.toNat < 0xE0000000 → z.dst.toNat + n ≤ 0xE0000000 → Gives (.moveDescriptor m ⟨[], none⟩) s fun t =>
      Memory.read t.lmem z.dst.toNat n = data ∧ t.mcs[m] = { done z with src := z.src + BitVec.ofNat 64 n, dst := z.dst + BitVec.ofNat 64 n })

/-- R311, R313 (LOOP_DESCRIPTOR): the first pass takes the count; while passes remain the program goes on at the target, and after the last one behind the
descriptor; count 0 loops for ever, and the 24-bit count wraps. A target that is no program address, the 64th control descriptor in a row and a loop
inside a loop are checks. -/
def Claims.LoopDescriptors : Prop :=
  ∀ (s : State) (m : McIx) (b : List Byte), s.alive → s.mcDesc m 0x02 = some b →
    let x := s.mcs[m]
    let count := leAt b 4 3
    let target := leAt b 8 8
    let does (f : Mc → Mc) : Prop := exec (.loopDescriptor m) s = .next (s.modMc m f)
    let lc := if x.lact then x.lc else count
    let good : Prop := mProgOk target = true ∧ x.ctl < 63
    let own : Prop := x.lact = false ∨ x.loopAt = x.pc
    (good → own → count = 0 → does fun y => { y with lact := true, loopAt := y.pc, lc := lc, pc := target, desc := none, ctl := y.ctl + 1 }) ∧
    (good → own → count ≠ 0 → lc ≠ 1 → does fun y =>
      { y with lact := true, loopAt := y.pc, lc := (lc + 0xFFFFFF) % 2 ^ 24, pc := target, desc := none, ctl := y.ctl + 1 }) ∧
    (good → own → count ≠ 0 → lc = 1 → does fun y => { y with lact := false, loopAt := y.pc, lc := 0, pc := y.pc + 32, desc := none, ctl := y.ctl + 1 }) ∧
    (good → ¬own → exec (.loopDescriptor m) s = .next ((s.modMc m fun y => { y with ctl := y.ctl + 1 }).mcCheck m 0x07)) ∧
    (mProgOk target = false → exec (.loopDescriptor m) s = .next (s.mcCheck m 0x03)) ∧
    (mProgOk target = true → 63 ≤ x.ctl → exec (.loopDescriptor m) s = .next (s.mcCheck m 0x08))

/-- R295, R312, R314 (WAIT_TICK, WAIT_TICK_END, WAIT_DRAIN, WAIT_DRAIN_END): the program waits for its points or for its writes, and then its channel is
ready for its lane at the next descriptor; a drain with nothing outstanding ends at once and keeps the lane, and one with writes outstanding does so or
waits (log entry 61). -/
def Claims.WaitsForTicksAndDrains : Prop :=
  ∀ (s : State) (m : McIx) (b : List Byte), s.alive →
    let does (c : Instr) (f : Mc → Mc) : Prop := exec c s = .next (s.modMc m f)
    let woken (y : Mc) : Mc := { y with pc := y.pc + 32, desc := none, state := .ready, wait := .none }
    let drained (y : Mc) : Mc := { y with pc := y.pc + 32, desc := none, ctl := 0, unacked := false }
    let waits (y : Mc) : Mc := { y with state := .waiting, ctl := 0, wait := .drain }
    (s.mcDesc m 0x03 = some b → leAt b 1 1 = 1 → does (.waitTick m) fun y =>
      { y with state := .waiting, ctl := 0, wait := .tick (decide (leAt b 2 1 = 1)) (max 1 (leAt b 4 3)) }) ∧
    (s.mcDesc m 0x03 = some b → leAt b 1 1 = 3 → s.mcs[m].unacked = false → does (.waitDrain m) drained) ∧
    (s.mcDesc m 0x03 = some b → leAt b 1 1 = 3 → s.mcs[m].unacked = true → Gives (.waitDrain m) s fun t =>
      (t.mcs[m] = drained s.mcs[m] ∨ t.mcs[m] = waits s.mcs[m]) ∧ (∀ j, j ≠ m → t.mcs[j] = s.mcs[j]) ∧ t = { s with mcs := t.mcs, free := t.free }) ∧
    ((∃ i, s.mcs[m].wait = .tick i 0) → s.mcs[m].stop = false → does (.waitTickEnd m) woken) ∧
    (s.mcs[m].wait = .drain → s.mcs[m].stop = false → does (.waitDrainEnd m) fun y => { woken y with unacked := false })

/-- R313 (WAIT_SIGNAL, WAIT_SIGNAL_WAKE): with a masked bit set in its word the wait ends, clearing the masked bits with CLR; otherwise the
program waits until a store has set one. -/
def Claims.WaitsForSignals : Prop :=
  ∀ (s : State) (m : McIx) (b : List Byte) (a : Nat) (mask : Word), s.alive → s.canonical → a % 4 = 0 → a + 4 ≤ 0xE0000000 →
    let w : Word := BitVec.ofNat 32 (Memory.num s.lmem a 4)
    let here : Prop := s.mcDesc m 0x03 = some b ∧ leAt b 1 1 = 2 ∧ leAt b 8 8 = a ∧ mask = BitVec.ofNat 32 (leAt b 4 4)
    (here → leAt b 2 1 = 0 → w &&& mask ≠ 0 → Gives (.waitSignal m) s fun t =>
      t.mcs[m] = { s.mcs[m] with pc := s.mcs[m].pc + 32, desc := none, ctl := 0 } ∧ t = { s with mcs := t.mcs }) ∧
    (here → leAt b 2 1 = 1 → w &&& mask ≠ 0 → Gives (.waitSignal m) s fun t =>
      t.mcs[m].pc = s.mcs[m].pc + 32 ∧ Memory.num t.lmem a 4 = (w &&& ~~~mask).toNat ∧
      ∀ i, i < a ∨ a + 4 ≤ i → Memory.get t.lmem i = Memory.get s.lmem i) ∧
    (here → w &&& mask = 0 → Gives (.waitSignal m) s fun t =>
      t.mcs[m] = { s.mcs[m] with state := .waiting, ctl := 0, wait := .signal a mask (decide (leAt b 2 1 = 1)) } ∧ t = { s with mcs := t.mcs }) ∧
    (s.mcs[m].wait = .signal a mask false → s.mcs[m].stop = false → w &&& mask ≠ 0 →
      (∀ j : McIx, j < m → ∀ i k, s.mcs[j].wait ≠ .signal i k true) → Gives (.waitSignalWake m) s fun t =>
        t.mcs[m] = { s.mcs[m] with pc := s.mcs[m].pc + 32, desc := none, state := .ready, wait := .none } ∧ t.lmem = s.lmem)

/-- R315 (SIGNAL): the count rises, the record with the time of the program's last earlier write, its value, channel and sequence number stands at the
record address in local memory, and the descriptor is complete. -/
def Claims.SignalsWriteTheirRecord : Prop :=
  ∀ (s : State) (m : McIx) (b : List Byte) (a : Nat), s.alive → s.canonical → s.mcDesc m 0x04 = some b → leAt b 1 1 = 0x80 → leAt b 8 8 = a →
    a % 16 = 0 → a + 16 ≤ 0xE0000000 → s.mcs[m].ctl < 63 → s.mcs[m].sig < 0xFFFFFFFE →
    Gives (.signal m) s fun t =>
      t.mcs[m] = { s.mcs[m] with sig := s.mcs[m].sig + 1, ctl := s.mcs[m].ctl + 1, pc := s.mcs[m].pc + 32, desc := none, wrTs := some s.now, unacked := true } ∧
      (∀ ts, s.mcs[m].wrTs = some ts → Memory.num t.lmem a 8 = ts % 2 ^ 64) ∧ Memory.num t.lmem (a + 8) 4 = leAt b 4 4 ∧ Memory.get t.lmem (a + 12) = BitVec.ofNat 8 m.val ∧
      Memory.get t.lmem (a + 13) = BitVec.ofNat 8 (s.mcs[m].sig + 1) ∧ Memory.get t.lmem (a + 14) = 0 ∧ Memory.get t.lmem (a + 15) = 0x80 ∧
      (∀ i, i < a ∨ a + 16 ≤ i → Memory.get t.lmem i = Memory.get s.lmem i) ∧ t.hq = s.hq ∧ t.qps = s.qps

/-- R316, R317 (END, STOP, MOVE_STOP): END turns the channel idle and completes its command with OK; a stop written while a program runs is a
request that, once taken at a boundary and not inside a LOOP in execution, ends the command with CHANNEL_CLEARED; a write while idle sets the
lane. -/
def Claims.ProgramsEndAndStop : Prop :=
  ∀ (s : State) (a : Agent) (m : McIx) (b : List Byte) (v : Word) (c : Cmd), s.alive →
    let x := s.mcs[m]
    let idle (y : Mc) : Mc := { y with state := .idle, stop := false, stopHost := false, stopDom := none, wait := .none, desc := none, owner := .none, unacked := false, lact := false, lc := 0 }
    (s.mcDesc m 0x05 = some b → x.owner = .cmd c → Gives (.endProgram m) s fun t => t.mcs[m] = idle x ∧ t.ended c 0 0 0 ∧
      (∀ j, j ≠ m → t.mcs[j] = s.mcs[j]) ∧ t = { s with mcs := t.mcs, qps := t.qps }) ∧
    (x.state ≠ .idle → x.state ≠ .check → v.getLsbD 31 = true → v.getLsbD 0 = x.bulk →
      exec (.stop a m v) s = .next (s.modMc m fun y => { y with stop := true, stopHost := true })) ∧
    (x.state = .idle ∨ x.state = .check → exec (.stop a m v) s = .next (s.modMc m fun y => { y with bulk := v.getLsbD 0 })) ∧
    (x.stop = true → x.state = .running → x.desc = none → x.owner = .cmd c → x.fenced = false → x.stopDom = none →
      Gives (.moveStop m) s fun t => t.mcs[m] = idle x ∧ t.ended c 0x20 0 0 ∧ t = { s with mcs := t.mcs, qps := t.qps }) ∧
    (∀ d, x.stop = true → x.state = .running → x.desc = some d → dOp d = 0x02 → exec (.moveStop m) s = .next s)

/-- R327 (REGISTER_WRITE): a write of 32 bits changes the register its address names and no other; a 64-bit write of the host or the Supervisor
writes the two registers; any other width, or an address that is not aligned, changes nothing but HQ_STAT.ACC_REJ; an address that names no
register takes no write; a Comb that is not ready takes none. -/
def Claims.RegisterWritesByWidth : Prop :=
  ∀ (s : State) (a : Agent) (p : PortIx) (n : ChIx) (v : BitVec 64), s.alive →
    (s.combReady (combOf p) = true → Gives (.registerWrite a ⟨.bar0, toW (portAddr p 0x70)⟩ 32 v) s fun t =>
      t.ports[p] = { s.ports[p] with r := { s.ports[p].r with scoutPred := v.truncate 32 } } ∧ (∀ q, q ≠ p → t.ports[q] = s.ports[q]) ∧
        t = { s with ports := t.ports, rules := t.rules }) ∧
    (s.combReady (combOf p) = false → Gives (.registerWrite a ⟨.bar0, toW (portAddr p 0x70)⟩ 32 v) s fun t => t = { s with rules := t.rules }) ∧
    (s.hq.admEn = false → Gives (.registerWrite .host ⟨.bar0, 0x2008⟩ 64 v) s fun t =>
      t.hq = { s.hq with admSq := v &&& 0xFFFFFFFFFFFFF000 } ∧ t = { s with hq := t.hq, rules := t.rules }) ∧
    (s.hq.admEn = true → Gives (.registerWrite .host ⟨.bar0, 0x2008⟩ 64 v) s fun t =>
      t.hq = { s.hq with wrBusy := true } ∧ t = { s with hq := t.hq, rules := t.rules }) ∧
    (s.chans[n].writable = true → Gives (.registerWrite .host ⟨.bar0, toW (0x300000 + n.val * 0x100 + 0x40)⟩ 32 v) s fun t =>
      t.chans[n] = { s.chans[n] with cx := s.chans[n].cx.set 0 (v.truncate 32) } ∧ (∀ j, j ≠ n → t.chans[j] = s.chans[j]) ∧
        t = { s with chans := t.chans, rules := t.rules }) ∧
    (∀ (x : Word) (w : Nat), ¬(w = 32 ∧ x.toNat % 4 = 0) → ¬(w = 64 ∧ x.toNat % 8 = 0) → ∀ b, b = .host ∨ b = .supervisor →
      Gives (.registerWrite b ⟨.bar0, x⟩ w v) s fun t => t = { s with hq := { s.hq with accRej := true }, rules := t.rules }) ∧
    (∀ b, Gives (.registerWrite b ⟨.bar0, 0x01002000⟩ 32 v) s fun t => t = { s with rules := t.rules })

/-- R9 (RCLR_READ): a read by 32 bits answers the count and clears it, and changes no other register; a read of one of its bytes answers
the byte and clears nothing. -/
def Claims.ReadsThatClear : Prop :=
  ∀ (s : State) (p : PortIx) (n : ChIx) (m : McIx) (r : RuleIx) (a : Agent), s.alive →
    let reads (b : Agent) (x v : Nat) (f : State → State) : Prop :=
      exec (.rclrRead b ⟨.bar0, toW x⟩ 32) s = .next { f s with lastRead := BitVec.ofNat 64 (v % 2 ^ 32) }
    (s.combReady (combOf p) = true → reads a (portAddr p 0x54) s.ports[p].ev.lost fun s => s.modPort p fun x => { x with ev := { x.ev with lost := 0 } }) ∧
    (s.combReady (combOf p) = true → reads a (portAddr p 0x78) s.ports[p].i.capLost fun s => s.modPort p fun x => { x with i := { x.i with capLost := 0 } }) ∧
    reads .host (0x300000 + n.val * 0x100 + 0x34) s.chans[n].ovrCnt (fun s => s.modChan n fun x => { x with ovrCnt := 0 }) ∧
    reads .host (0x200000 + m.val * 0x40 + 0x28) s.mcs[m].sig (fun s => s.modMc m fun x => { x with sig := 0 }) ∧
    reads .host (0x400000 + r.val * 0x20 + 0x18) s.rules[r].fires (fun s => s.modRule r fun x => { x with fires := 0 }) ∧
    reads .supervisor 0x800C s.prop.lost (fun s => { s with prop := { s.prop with lost := 0 } }) ∧
    (∀ i, i < 4 → exec (.rclrRead .host ⟨.bar0, toW (0x800C + i)⟩ 8) s = .next { s with lastRead := BitVec.ofNat 64 (s.prop.lost / 2 ^ (8 * i) % 256) })

/-- R325, R326, R348 and R350 (REGISTER_WRITE, RCLR_READ in the MSI-X table and the configuration space; the bits of both are PCI Express's, log entry
102): the address and data of a vector's entry are written and read back in its doublewords; a vector's mask is set; the class code and a BAR's
read-only bits take no write; the sizes of the Device Control register are kept where the function supports them. -/
def Claims.TableAndConfiguration : Prop :=
  ∀ (s : State) (n : VecIx) (v : Word) (r : CfgReg), s.alive →
    let entry : Nat := 16 * n.val
    (Gives (.registerWrite .host ⟨.bar4, toW (entry + 8)⟩ 32 (v.zeroExtend 64)) s fun t =>
      t.hq.vecs[n] = { s.hq.vecs[n] with msg := v ++ s.hq.vecs[n].msg.extractLsb' 0 64 } ∧ (∀ j, j ≠ n → t.hq.vecs[j] = s.hq.vecs[j]) ∧
        t = { s with hq := { s.hq with vecs := t.hq.vecs }, rules := t.rules }) ∧
    (Gives (.registerWrite .host ⟨.bar4, toW (entry + 12)⟩ 32 1) s fun t =>
      t.hq.vecs[n] = { s.hq.vecs[n] with mask := true } ∧ (∀ j, j ≠ n → t.hq.vecs[j] = s.hq.vecs[j]) ∧
        t = { s with hq := { s.hq with vecs := t.hq.vecs }, rules := t.rules }) ∧
    exec (.rclrRead .host ⟨.bar4, toW (entry + 8)⟩ 32) s = .next { s with lastRead := (s.hq.vecs[n].msg.extractLsb' 64 32).zeroExtend 64 } ∧
    (Gives (.registerWrite .host ⟨.cfg .classCode, 0⟩ 32 (v.zeroExtend 64)) s fun t => t = { s with rules := t.rules }) ∧
    exec (.rclrRead .host ⟨.cfg .classCode, 0⟩ 32) s = .next { s with lastRead := 0x11800000 } ∧
    (Gives (.registerWrite .host ⟨.cfg (.bar 0), 0⟩ 32 (v.zeroExtend 64)) s fun t =>
      t.hq.bars[(0 : Fin 6)] = v &&& 0xFC000000 ∧ t = { s with hq := { s.hq with bars := s.hq.bars.set 0 (v &&& 0xFC000000) }, rules := t.rules }) ∧
    (fld v 7 5 ≤ 2 → fld v 14 12 ≤ 5 → Gives (.registerWrite .host ⟨.cfg .deviceControl, 0⟩ 32 (v.zeroExtend 64)) s fun t =>
      t = { s with hq := { s.hq with mps := fld v 7 5, mrrs := fld v 14 12 }, rules := t.rules }) ∧
    (2 < fld v 7 5 → 5 < fld v 14 12 → Gives (.registerWrite .host ⟨.cfg .deviceControl, 0⟩ 32 (v.zeroExtend 64)) s fun t =>
      t = { s with rules := t.rules }) ∧
    (Gives (.rclrRead .host ⟨.cfg r, 0⟩ 32) s fun t => t = { s with lastRead := t.lastRead })

/-- R51 (TICK_NOW_LO, TICK_EDGE_LO): a read of the low half answers it and keeps the high half for that agent; a read of the high half
answers what was kept. -/
def Claims.TimeIsReadInHalves : Prop :=
  ∀ (s : State), s.alive →
    exec (.tickNowLo .host) s = .next { s with lastRead := BitVec.ofNat 64 (s.now % 2 ^ 32), tick := { s.tick with hostSnap := (hi32 s.now, s.tick.hostSnap.2) } } ∧
    exec (.tickNowLo .supervisor) s = .next { s with lastRead := BitVec.ofNat 64 (s.now % 2 ^ 32), tick := { s.tick with supSnap := (hi32 s.now, s.tick.supSnap.2) } } ∧
    exec (.tickEdgeLo .host) s =
      .next { s with lastRead := BitVec.ofNat 64 (s.tick.edge % 2 ^ 32), tick := { s.tick with hostSnap := (s.tick.hostSnap.1, hi32 s.tick.edge) } } ∧
    exec (.tickEdgeLo .supervisor) s =
      .next { s with lastRead := BitVec.ofNat 64 (s.tick.edge % 2 ^ 32), tick := { s.tick with supSnap := (s.tick.supSnap.1, hi32 s.tick.edge) } } ∧
    exec (.rclrRead .host ⟨.bar0, 0x1014⟩ 32) s = .next { s with lastRead := s.tick.hostSnap.1.zeroExtend 64 } ∧
    exec (.rclrRead .supervisor ⟨.bar0, 0x101C⟩ 32) s = .next { s with lastRead := s.tick.supSnap.2.zeroExtend 64 }

/-- R142 (PC_CNT_LO, PC_TS_LO), R110 and R384 (PC_EVQ_POP, REFLEX_EVQ_POP): a read of a low half captures the high half for its agent; a pop answers the
oldest unread record with its validity bit, captures its time, and leaves it as the youngest retained record; a pop of an empty queue answers 0. -/
def Claims.CountersAndRecordsAreRead : Prop :=
  ∀ (s : State) (a : Agent) (p : PortIx) (r : EvRec) (rs : List EvRec) (x : RxRec) (xs : List RxRec), s.alive →
    let word := r.data.toNat + r.code * 2 ^ 32 + p.val * 2 ^ 40 + r.seq * 2 ^ 48 + 2 ^ 63
    let rword := x.rule + x.code * 2 ^ 16 + x.tgt * 2 ^ 24 + x.src * 2 ^ 32 + x.seq * 2 ^ 40 + x.de.toNat * 2 ^ 48 + 2 ^ 63
    let only (t : State) : Prop := (∀ q, q ≠ p → t.ports[q] = s.ports[q]) ∧ t = { s with ports := t.ports, lastRead := t.lastRead }
    let popped (t : State) : Prop := t.ports[p].ev.unread = rs ∧ t.ports[p].ev.ret = s.ports[p].ev.ret ++ [r] ∧ (t.ports[p].capOf a).evqTs = r.ts ∧
      t.ports[p] = { s.ports[p] with ev := t.ports[p].ev, caps := t.ports[p].caps } ∧ only t
    (s.combReady (combOf p) = true →
      (Gives (.pcCntLo a p) s fun t => t.lastRead.toNat = (s.ports[p].c.regCnt % 2 ^ 32).toNat ∧
        (t.ports[p].capOf a) = { s.ports[p].capOf a with cntHi := s.ports[p].c.hi } ∧ t.ports[p] = { s.ports[p] with caps := t.ports[p].caps } ∧ only t) ∧
      (Gives (.pcTsLo a p) s fun t => t.lastRead = BitVec.ofNat 64 (s.ports[p].c.regTs % 2 ^ 32) ∧
        (t.ports[p].capOf a) = { s.ports[p].capOf a with tsHi := hi32 s.ports[p].c.regTs } ∧ t.ports[p] = { s.ports[p] with caps := t.ports[p].caps } ∧ only t) ∧
      (s.ports[p].ev.unread = r :: rs → Gives (.pcEvqPop a p 32) s fun t => t.lastRead = BitVec.ofNat 64 (word % 2 ^ 32) ∧
        (t.ports[p].capOf a).evqHi = BitVec.ofNat 32 (word / 2 ^ 32) ∧ popped t) ∧
      (s.ports[p].ev.unread = r :: rs → ∀ b, b = a → b = .host ∨ b = .supervisor → Gives (.pcEvqPop b p 64) s fun t => t.lastRead = BitVec.ofNat 64 word ∧ popped t) ∧
      (s.ports[p].ev.unread = [] → Gives (.pcEvqPop a p 32) s fun t => t.lastRead = 0 ∧ t.ports[p].ev = s.ports[p].ev ∧
        (t.ports[p].capOf a) = { s.ports[p].capOf a with evqHi := 0 } ∧ only t)) ∧
    (s.rx.evq = x :: xs → Gives (.reflexEvqPop .host 64) s fun t => t.lastRead = BitVec.ofNat 64 rword ∧ t.rx.evq = xs ∧ (t.rx.capOf .host).2 = x.ts ∧
      t = { s with rx := { s.rx with evq := t.rx.evq, caps := t.rx.caps }, lastRead := t.lastRead }) ∧
    (s.rx.evq = [] → Gives (.reflexEvqPop .host 64) s fun t => t = { s with lastRead := 0 })

/-- R14, R36, R38, R47, R49 (TICK_EDGE): after SCOUT_SEAL the edge lies one frame after the last, the frame that opens is as long as the accumulator
makes it, a pending period whose count runs out opens it from accumulator 0, each core's cycles are published and start anew; memories and queues
stay. No edge falls before the tick runs or out of its place in the frame (log entry 3). -/
def Claims.TickEdgesOpenFrames : Prop :=
  ∀ (s : State) (obs : List EdgeObs) (moved : Nat), s.alive →
    (s.glb.tick = false ∨ s.tick.phase ≠ .seal → Gives (.tickEdge obs moved) s fun t => t = { s with rules := t.rules }) ∧
    (s.glb.tick = true → s.tick.phase = .seal → s.tick.role ≠ .follower → s.tick.link.adopt = none → Gives (.tickEdge obs moved) s fun t =>
      let edge := s.tick.at (16 * s.tick.len)
      let open_ : Word × Nat := match s.tick.pend with
        | some (v, 0) => (v, s.tick.acc)
        | some (v, 1) => (v, 0)
        | _ => (s.tick.act, s.tick.acc)
      let sum := open_.2 + fld open_.1 25 18
      t.tick.edge = edge ∧ (s.tick.slew = 0 → edge = s.tick.edge + 16 * s.tick.len) ∧
      t.tick.now = max s.tick.now edge ∧ t.tick.phase = .edge ∧ t.tick.frames = s.tick.frames + 1 ∧
      t.tick.len = fld open_.1 17 0 + (if 256 ≤ sum then 1 else 0) ∧ t.tick.acc = sum % 256 ∧ t.tick.slew = 0 ∧
      t.tick.pend = s.tick.pend.map (fun p => (p.1, p.2 - 1)) ∧ t.tick.act = s.tick.act ∧
      (∀ k : CoreIx, t.cores[k] = { s.cores[k] with cyc := 0, run := t.cores[k].run, held := t.cores[k].held }) ∧
      ((∀ k : CoreIx, s.cores[k].hold = none) →
        (∀ k : CoreIx, t.tick.budLast[k] = min 0xFFFFF s.cores[k].cyc ∧ t.tick.budPeak[k] = max s.tick.budPeak[k] (min 0xFFFFF s.cores[k].cyc)) ∧
        (∀ n : ChIx, t.chans[n].cycLast = min 0xFFFFF s.chans[n].cyc)) ∧
      (∀ n : ChIx, t.chans[n].cyc = 0) ∧
      t.lmem = s.lmem ∧ t.csram = s.csram ∧ t.mcs = s.mcs ∧ t.qps = s.qps ∧ t.hq = s.hq ∧ t.cast = s.cast ∧ t.gauge = s.gauge ∧ t.psu = s.psu)

/-- R41, R187, R312, R449 (DISPATCH): 40 ns after the edge, waiting channels and move channels come one point nearer, and every channel with work
at or above the floor is granted, but no channel without work. -/
def Claims.DispatchGrantsWork : Prop :=
  ∀ (s : State) (e : EnergyObs), s.alive → s.glb.tick = true → s.tick.phase = .edge → Gives (.dispatch e) s fun t =>
    t.tick.phase = .dispatch ∧ t.tick.now = max s.tick.now (s.tick.at 160) ∧ t.tick.edge = s.tick.edge ∧
    (∀ n : ChIx, t.chans[n].waitN = (if s.chans[n].wait = ChWait.waitf then s.chans[n].waitN - 1 else s.chans[n].waitN) ∧
      t.chans[n].state = s.chans[n].state ∧
      (s.chans[n].state = .active ∨ s.chans[n].state = .posting → s.fan.floor ≤ s.chans[n].bind.prio → s.chans[n].bind.prio ≤ 7 →
        t.chans[n].granted = true) ∧
      (s.chans[n].state ≠ .active → s.chans[n].state ≠ .posting → t.chans[n].granted = false)) ∧
    (∀ m : McIx, ∀ k, s.mcs[m].wait = .tick false k → t.mcs[m] = { s.mcs[m] with wait := .tick false (k - 1) }) ∧
    (∀ m : McIx, (∀ k, s.mcs[m].wait ≠ .tick false k) → t.mcs[m] = s.mcs[m]) ∧
    t.cast = s.cast ∧ t.qps = s.qps ∧ t.gauge = s.gauge

/-- R41, R76, R104, R290, R312 (INPUT_READY): 520 ns after the edge, the field-supply voltages and the settings of the Scout lane are in force, and
the move channels that wait for the point come one nearer. -/
def Claims.InputReadyPublishes : Prop :=
  ∀ (s : State) (obs : List FrameObs) (c : CombIx) (v : BitVec 16), s.alive → s.glb.tick = true → s.tick.phase = .dispatch →
    Gives (.inputReady obs [(c, v)]) s fun t =>
      t.tick.phase = .input ∧ t.tick.now = max s.tick.now (s.tick.at 2080) ∧
      (s.combReady c = true → t.combs[c] = { s.combs[c] with volt := v }) ∧ (∀ d, d ≠ c → t.combs[d] = s.combs[d]) ∧
      t.blk.scEnAct = s.blk.scEn ∧
      (∀ n : ChIx, t.chans[n].sc.ctrlAct = s.chans[n].sc.ctrl ∧ t.chans[n].sc.depAct = (s.chans[n].sc.depA, s.chans[n].sc.depB)) ∧
      (∀ p : PortIx, s.combReady (combOf p) = true → s.ports[p].md = mIdle →
        t.ports[p].i.inVal = 0 ∧ t.ports[p].i.rbVal = 0 ∧ t.ports[p].i.loadVal = 0 ∧ t.ports[p].st.rbValid = false) ∧
      (∀ m : McIx, ∀ k, s.mcs[m].wait = .tick true k → t.mcs[m] = { s.mcs[m] with wait := .tick true (k - 1) }) ∧
      (∀ m : McIx, (∀ k, s.mcs[m].wait ≠ .tick true k) → t.mcs[m] = s.mcs[m])

/-- R43, R267 (STAGE_DEADLINE, SCOUT_SEAL): with no routine to cut off and no channel deferred, the last value staged at each port is taken and
staging starts anew; at SCOUT_SEAL a run that has ended is sealed with its tolerance bands, and one still running aborts with LATE; with domain 5 not
up both are CURTAILED (R279). -/
def Claims.StagedValuesAreTaken : Prop :=
  ∀ (s : State), s.alive → s.glb.tick = true →
    (s.tick.phase = .input → (∀ k : CoreIx, s.cores[k].run = none) → (∀ n : ChIx, s.chans[n].state ≠ .active) → Gives .stageDeadline s fun t =>
      let x := 16 * s.tick.len - 6000
      t.tick = { s.tick with phase := .stage, ofs := max s.tick.ofs x, now := max s.tick.now (s.tick.at x) } ∧
      (∀ p : PortIx, t.ports[p].o = { s.ports[p].o with stg := [], taken := (s.ports[p].o.stg.getLast?.map (·.2)).or s.ports[p].o.taken }) ∧
      t = { s with tick := t.tick, ports := t.ports }) ∧
    (s.tick.phase = .stage → Gives .scoutSeal s fun t =>
      let x := 16 * s.tick.len - 1000
      t.tick = { s.tick with phase := .seal, ofs := max s.tick.ofs x, now := max s.tick.now (s.tick.at x) } ∧
      (∀ n : ChIx, s.chans[n].sc.run = .ended → s.dom 5 = .on → t.chans[n].sc.run = .sealed ∧ t.chans[n].sc.buf = s.chans[n].sc.buf) ∧
      (∀ n : ChIx, s.chans[n].sc.run = .running → s.dom 5 = .on → t.chans[n].sc.run = .aborted 0xF1 ∧ t.chans[n].sc.buf = []) ∧
      (∀ n : ChIx, s.chans[n].sc.run = .ended ∨ s.chans[n].sc.run = .running → s.dom 5 ≠ .on →
        t.chans[n].sc.run = .curtailed ∧ t.chans[n].sc.buf = []) ∧
      (∀ n : ChIx, s.chans[n].sc.run = .none → t.chans[n].sc.run = .none ∧ t.chans[n].state = s.chans[n].state) ∧
      t.qps = s.qps ∧ t.lmem = s.lmem ∧ t.mcs = s.mcs)

/-- R37 (TICK_PERIOD, PERIOD_TAKES_EFFECT): a period of 1,000 to 250,000 steps, the last with FRAC 0 only, is stored and, where the tick runs and is the module's own, becomes
pending with a count of eight; a follower's is stored alone; any other sets the tick's CFG_REJ and changes nothing; at the edge of count 0 the pending period is
shown in force. -/
def Claims.PeriodsWaitEightEdges : Prop :=
  ∀ (s : State) (a : Agent) (v w : Word), s.alive →
    let ok : Prop := 256000 ≤ fld v 17 0 * 256 + fld v 25 18 ∧ fld v 17 0 * 256 + fld v 25 18 ≤ 64000000
    (¬ok → exec (.tickPeriod a v) s = .next { s with glb := { s.glb with tickRej := true } }) ∧
    (ok → s.tick.role ≠ .follower → s.glb.tick = true →
      exec (.tickPeriod a v) s = .next { s with tick := { s.tick with period := v &&& 0x03FFFFFF, pend := some (v &&& 0x03FFFFFF, 8) } }) ∧
    (ok → s.tick.role = .follower → exec (.tickPeriod a v) s = .next { s with tick := { s.tick with period := v &&& 0x03FFFFFF } }) ∧
    (s.tick.pend = some (w, 0) → s.tick.phase = .edge → exec .periodTakesEffect s = .next { s with tick := { s.tick with act := w, pend := none } }) ∧
    (∀ n, s.tick.pend = some (w, n + 1) → exec .periodTakesEffect s = .next s)

/-- R55, R56, R58 (TICK_MESSAGE_RECEIVE, CAL_REQ, CABLE_PROBE, PROBE_RETURN, CABLE_DELAY_DONE): a follower takes a good message as a marker with its place
in the chain; a message whose CRC or SYNC is wrong is none; a place beyond the seventh sets CHAIN_LONG; a measurement sends 64 probes, one a frame, and
its mean of (round trip − 256 ns) ÷ 2 becomes the delay. -/
def Claims.FollowersMeasureTheirLink : Prop :=
  ∀ (s : State) (a : Agent) (m : BitVec 128) (arrival : Int) (v : Word) (n r sum rt : Nat), s.alive →
    let good : Prop := m.toNat % 256 = 0xA5 ∧ (crc8 (msgBits m)).toNat = m.toNat / 2 ^ 120 ∧ m.toNat / 2 ^ 8 % 16 = 0
    let hop := m.toNat / 2 ^ 12 % 16
    let link (c : Instr) (f : TickLink → TickLink) : Prop := exec c s = .next { s with tick := { s.tick with link := f s.tick.link } }
    (s.tick.role ≠ .follower → exec (.tickMessageReceive m arrival) s = .next s) ∧
    (¬good → exec (.tickMessageReceive m arrival) s = .next s) ∧
    (s.tick.role = .follower →
      (good → 7 ≤ hop → link (.tickMessageReceive m arrival) fun l => { l with chainLong := true, good := 0 }) ∧
      (good → hop < 7 → Gives (.tickMessageReceive m arrival) s fun t => t.tick.link.hop = hop + 1 ∧ t.tick.link.seen = true ∧
        t.tick.link.good = s.tick.link.good + 1 ∧ t.tick.link.chainLong = false ∧ t.tick.link.carriedTs = m.toNat / 2 ^ 16 % 2 ^ 64 ∧
        t.tick.now = s.tick.now ∧ t.tick.edge = s.tick.edge ∧ t = { s with tick := t.tick }) ∧
      (s.tick.calReq = false → s.tick.link.state = .locked → s.tick.link.cal = none → v.getLsbD 4 = true → Gives (.calReq a v) s fun t =>
        t.tick.calReq = true ∧ t.tick.link.cal = some (0, 0, 0) ∧ t.tick.outEn = v.getLsbD 3 ∧ t.tick.discEn = v.getLsbD 2 ∧ t.tick.role = s.tick.role ∧
          t = { s with tick := t.tick }) ∧
      (s.tick.link.cal = some (n, r, sum) →
        (n < 64 → s.tick.link.probeOut = false → Gives .cableProbe s fun t => t.tick.link.cal = some (n + 1, r, sum) ∧ t.out = .probe :: s.out ∧
          t = { s with tick := { s.tick with link := t.tick.link }, out := t.out }) ∧
        (s.tick.link.probeOut = true → r < n → link (.probeReturn false rt) fun l => { l with cal := some (n, r + 1, sum + rt) }) ∧
        (64 ≤ n → 60 ≤ r → roundDiv ((sum : Int) - 1024 * r) (2 * r) ≤ 2400 → Gives .cableDelayDone s fun t =>
          t.tick.link.cal = none ∧ (t.tick.link.dly : Int) = max 0 (roundDiv ((sum : Int) - 1024 * r) (2 * r)) ∧ t.tick.link.calDone = true ∧
            t.tick.link.calErr = s.tick.link.calErr ∧ t = { s with tick := { s.tick with link := t.tick.link, calReq := false } }) ∧
        (64 ≤ n → r < 60 → Gives .cableDelayDone s fun t => t.tick.link.cal = none ∧ t.tick.link.calErr = true ∧ t.tick.link.dly = s.tick.link.dly))) ∧
    exec (.probeReturn true rt) s = .next { s with out := .probe :: s.out }

/-- R58, R59, Table 2-3 (LINK_ACQUIRE, LINK_LOCK, MARKER_LOST, ACQUISITION_TICK): the follower's link state machine. -/
def Claims.FollowersAcquireAndHold : Prop :=
  ∀ (s : State), s.alive → s.tick.role = .follower →
    let l := s.tick.link
    let edge (x : TickLink) : TickLink := { x.atEdge with acqEdge := x.acqEdge + (meanUnits x.carried : Int) / 16 }
    (l.state = .free → l.chainLong = false → 8 ≤ l.good → exec .linkAcquire s =
      .next { s with tick := { s.tick with link := { l with state := .acquire, cal := some (0, 0, 0), measured := false, near := 0 } } }) ∧
    (l.good < 8 → exec .linkAcquire s = .next s) ∧
    (l.state = .acquire → l.measured = true → 64 ≤ l.near → l.everLocked = true → exec .linkLock s =
      .next { s with tick := { s.tick with link := { l with state := .locked, sinceCal := 0 } } }) ∧
    (l.state = .acquire → l.measured = true → 64 ≤ l.near → l.everLocked = false → s.glb.tick = false → Gives .linkLock s fun t =>
      t.tick.link.state = .locked ∧ t.glb.tick = true ∧ t.tick.now = l.carriedTs + l.dly ∧ t.tick.act = l.carried ∧ t.tick.started = true) ∧
    (l.near < 64 → exec .linkLock s = .next s) ∧
    (l.state = .locked → 3 ≤ l.missed → l.everLocked = true → Gives .markerLost s fun t => t.tick.link.state = .holdover ∧ t.tick.link.markerLost = true ∧
      t.prop.reports = s.prop.reports ++ [⟨⟨0x10, 0⟩, 0x88, 0, 0, s.now, none⟩] ∧ t = { s with tick := { s.tick with link := t.tick.link }, prop := t.prop }) ∧
    (l.missed < 3 → exec .markerLost s = .next s) ∧
    (s.glb.tick = false → exec .acquisitionTick s = .next { s with tick := { s.tick with link := edge l } })

/-- R108, R109, R111, R395, R397: a record joins the unread ones with the next sequence number; with 64 unread it is discarded and counted; where
64 are held it takes the place of the oldest retained one, and the mark is lost with that one. -/
def Claims.EventRecordsArePosted : Prop :=
  ∀ (s : State) (p : PortIx) (code ts : Nat) (data : Word),
    let e := s.ports[p].ev
    let t := s.postEv p code data ts
    let seq := (e.seq + 1) % 256
    let only (ev : PortEvq) : Prop := t = s.modPort p fun x => { x with ev := ev }
    (e.unread.length + e.ret.length < 64 → only { e with seq := seq, unread := e.unread ++ [⟨ts, data, code, seq⟩] }) ∧
    (64 ≤ e.unread.length → e.lost < 0xFFFFFFFE → only { e with seq := seq, lost := e.lost + 1 }) ∧
    (e.unread.length < 64 → 64 ≤ e.unread.length + e.ret.length → e.mark = some (e.ret.length : Int) →
      only { e with seq := seq, unread := e.unread ++ [⟨ts, data, code, seq⟩], ret := e.ret.drop 1, mark := none, markLost := true }) ∧
    (e.unread.length < 64 → 64 ≤ e.unread.length + e.ret.length → e.mark = none →
      only { e with seq := seq, unread := e.unread ++ [⟨ts, data, code, seq⟩], ret := e.ret.drop 1 })

/-- R141, R394 to R400 (READER_STEP, READER_DATA, STROBE_START, STROBE_END, EVQ_FLUSH, SET, REWIND, REWIND_OLDEST): a step presents the next character of the queue, or of the
history; the mark is set at the read pointer and a rewind moves the pointer back to it. -/
def Claims.ReaderAndMarkedQueue : Prop :=
  ∀ (s : State) (a : Agent) (p : PortIx) (c : CombIx) (ch : Byte) (w : BitVec 9) (rest : List (BitVec 9)) (d : Nat), s.alive →
    let lead : PortIx := finOf 128 (8 * c.val)
    let y := s.ports[lead]
    let e := s.ports[p].ev
    let ready : Prop := y.md = mReader ∧ y.a.runs = true ∧ y.o.held = .free ∧ s.combs[c].seq = .idle
    let only (t : State) : Prop := (∀ k, k ≠ c → t.combs[k] = s.combs[k]) ∧ (∀ q, q ≠ lead → t.ports[q] = s.ports[q]) ∧
      t = { s with combs := t.combs, ports := t.ports, prop := t.prop }
    let marks (i : Instr) (f : PortEvq → PortEvq) : Prop := exec i s = .next (s.modPort p fun x => { x with ev := f x.ev })
    (ready → s.combs[c].h = 0 → y.tx.q = w :: rest → rest.length ≠ 64 → Gives (.readerStep c false) s fun t =>
      t.combs[c] = { s.combs[c] with hist := (w.truncate 8 :: s.combs[c].hist).take 256, seq := .data (w.truncate 8) } ∧ t.ports[lead].tx.q = rest ∧ only t) ∧
    (ready → s.combs[c].h = 0 → y.tx.q = [] → Gives (.readerStep c false) s fun t =>
      t.combs[c] = s.combs[c] ∧ t.ports[lead].st.f1 = true ∧ (⟨⟨0x01, lead.val⟩, 0x31, 0, 0, s.now, none⟩ : Report) ∈ t.prop.reports ∧ only t) ∧
    (y.md = mReader → y.a.runs = true → y.o.held = .free → s.combs[c].seq ≠ .idle → Gives (.readerStep c false) s fun t =>
      t.combs[c] = s.combs[c] ∧ t.ports[lead].tx = y.tx ∧ (⟨⟨0x01, lead.val⟩, 0x32, 0, 0, s.now, none⟩ : Report) ∈ t.prop.reports ∧ only t) ∧
    (s.combs[c].seq = .data ch → Gives (.readerData c) s fun t =>
      t.combs = s.combs.set c { s.combs[c] with lines := if y.a.range.getLsbD 30 then ~~~ch else ch, seq := .strobe } ∧
      (∀ q, combOf q = c → t.ports[q] = { s.ports[q] with o := { s.ports[q].o with on := true, driving := !s.ports[q].shut } }) ∧
      (∀ q, combOf q ≠ c → t.ports[q] = s.ports[q]) ∧ t = { s with combs := t.combs, ports := t.ports }) ∧
    (s.combs[c].seq = .strobe → exec (.strobeStart c) s = .next (s.modComb c fun x => { x with strobe := true, seq := .inStrobe })) ∧
    (s.combs[c].seq = .inStrobe → exec (.strobeEnd c) s = .next (s.modComb c fun x => { x with strobe := false, seq := .idle })) ∧
    (s.combReady (combOf p) = true →
      marks (.evqFlush a p 0x80000000) (fun e => { e with unread := [], ret := [], mark := none }) ∧
      marks (.setMark a p 0x80000000) (fun e => { e with mark := some 0 }) ∧
      (e.mark = none → marks (.rewind a p 0x40000000) fun e => { e with rwFail := true }) ∧
      (e.mark = some (d : Int) → 0 < d → d ≤ e.ret.length → marks (.rewind a p 0x40000000) fun e =>
        { e with ret := e.ret.take (e.ret.length - d), unread := e.ret.drop (e.ret.length - d) ++ e.unread, mark := some 0 }) ∧
      marks (.rewindOldest a p 0x20000000) (fun e => { e with ret := [], unread := e.ret ++ e.unread, mark := e.mark.map (· - (e.ret.length : Int)) }) ∧
      (exec (.rewind a p 0xC0000000) s = .next (s.modPort p fun x => { x with st := { x.st with cfgRej := true } })))

/-- R67, R68, R70, R95, R153 (PC_MODE, CHANGEOVER_FRAME, MODE_TAKES_EFFECT): a write with a listed MODE is kept; a reserved one sets CFG_REJ; one at a
pair outside BYPASS is ignored with ERR 8; the next tick edge opens a frame without function, high-impedance with its values 0; the one after it puts the
new mode into effect. -/
def Claims.ModesChangeOverAFrame : Prop :=
  ∀ (s : State) (a : Agent) (p : PortIx) (v m : Word), s.alive → s.combReady (combOf p) = true →
    let x := s.ports[p]
    let locked : Prop := s.pairs[pairOf p].link = true ∧ s.pairs[pairOf p].mode ≠ .bypass
    let listed : Prop := modeOk (fld v 5 0) = true ∧ fld v 17 16 ≠ 3 ∧ fld v 13 12 ≠ 3
    let others (t : State) : Prop := ∀ q, combOf q ≠ combOf p → t.ports[q] = s.ports[q]
    (x.st.cellFail = false → listed → ¬locked → exec (.pcMode a p v) s =
      .next (s.modPort p fun x => { x with r := { x.r with mode := v &&& 0x0003B03F }, a := { x.a with wrote := s.tick.frames } })) ∧
    (x.st.cellFail = false → ¬listed → exec (.pcMode a p v) s = .next (s.modPort p fun x => { x with st := { x.st with cfgRej := true } })) ∧
    (x.st.cellFail = false → listed → locked → exec (.pcMode a p v) s = .next (s.modPair (pairOf p) fun x => { x with err := 8 })) ∧
    (x.st.cellFail = true → exec (.pcMode a p v) s = .next s) ∧
    (fld x.r.mode 5 0 ≠ x.modeNow → x.a.wrote < s.tick.frames → ¬locked → Gives (.changeoverFrame p) s fun t =>
      t.ports[p].a.change = some x.r.mode ∧ t.ports[p].r.mode = x.r.mode ∧ t.ports[p].st.modeChg = true ∧ t.ports[p].o.driving = false ∧
      t.ports[p].i.inVal = 0 ∧ t.ports[p].i.rbVal = 0 ∧ t.ports[p].i.loadVal = 0 ∧ t.ports[p].o.stg = [] ∧ t.ports[p].o.taken = none ∧
      t.ports[p].tx.q = [] ∧ others t ∧ t = { s with ports := t.ports, combs := t.combs, rules := t.rules }) ∧
    (x.a.change = some m → x.a.since < s.tick.frames → Gives (.modeTakesEffect p) s fun t =>
      t.ports[p].a.change = none ∧ t.ports[p].a.mode = m ∧ t.ports[p].st.modeChg = false ∧ t.ports[p].o.stg = [] ∧
      (fld m 5 0 = mIdle ∨ fld m 5 0 = mAiV ∨ fld m 5 0 = mDi → t.ports[p].o.driving = false ∧ t.ports[p].o.act = 0) ∧ others t ∧
      t = { s with ports := t.ports, combs := t.combs, rules := t.rules, free := t.free })

/-- R43, R70, R92 (PC_OUT_SET, PORT_SETTINGS_APPLY, LEARN, LEARN_COMPLETE): a staging write joins those of its frame; written settings take effect at
the first tick edge after their write and not before, a slew limit from the level reached, and a changed INV inverts STATE; the mean of 256 frames
becomes the reference. -/
def Claims.SettingsTakeEffectAtAnEdge : Prop :=
  ∀ (s : State) (a : Agent) (p : PortIx) (v : Word) (n sum : Nat), s.alive → s.combReady (combOf p) = true →
    let x := s.ports[p]
    let core : Option CoreIx := match a with | .needle k => some k | _ => none
    (¬(x.md = mDiff ∧ x.opt 31 28 = 7) → exec (.pcOutSet a p v) s =
      .next (s.modPort p fun x => { x with r := { x.r with outSet := v }, o := { x.o with stg := x.o.stg ++ [(core, v)] } })) ∧
    (x.md = mDiff → x.opt 31 28 = 7 → exec (.pcOutSet a p v) s = .next s) ∧
    (x.a.wrote < s.tick.frames → Gives (.portSettingsApply p) s fun t =>
      t.ports[p].a.range = x.r.range ∧ t.ports[p].a.limits = x.r.limits ∧ t.ports[p].a.loadRef = x.r.loadRef ∧ t.ports[p].a.scoutTol = x.r.scoutTol ∧
      t.ports[p].r = x.r ∧ (∀ q, combOf q ≠ combOf p → t.ports[q] = s.ports[q]) ∧
      t.ports[p].c.state = (x.c.state != (x.md == mDi && x.a.range.getLsbD 12 != x.r.range.getLsbD 12)) ∧
      (x.isAo = true → x.o.driving = true → t.ports[p].o.level = x.levelAtT s.now ∧ t.ports[p].o.levelAt = s.now) ∧
      t = { s with ports := t.ports, prop := t.prop, rules := t.rules }) ∧
    (s.tick.frames ≤ x.a.wrote → Gives (.portSettingsApply p) s fun t => t = { s with rules := t.rules }) ∧
    (exec (.learn a p v) s = .next (s.modPort p fun x =>
      { x with r := { x.r with loadRef := (v &&& 0xFFFF00FF) ||| ((v ||| x.r.loadRef) &&& 0x100) }, a := { x.a with wrote := s.tick.frames } })) ∧
    (x.st.learn = some (n, sum) → 256 ≤ n → Gives (.learnComplete p) s fun t =>
      fld t.ports[p].r.loadRef 31 16 = min 0xFFFF ((sum + 128 * 2 ^ 32) / (256 * 2 ^ 32)) ∧ fld t.ports[p].r.loadRef 15 0 = fld x.r.loadRef 7 0 ∧
      t.ports[p].a.loadRef = t.ports[p].r.loadRef ∧ t.ports[p].st.learn = none ∧ (∀ q, q ≠ p → t.ports[q] = s.ports[q]) ∧ t = { s with ports := t.ports }) ∧
    (x.st.learn = some (n, sum) → n < 256 → exec (.learnComplete p) s = .next s)

/-- R149, R154 to R156, Table 5-3 (PC_GRAFT, GRAFT_REQUEST): a write of the upstream port is a request for the next tick edge, where it is refused with the first
cause of R155, changing ERR alone, or applied: ARMING energises the coil, RELEASING lets it fall, SUBSTITUTE lets the port drive its own value; in Bind-off and in
a restart it waits (the model's choice, log entry 89). -/
def Claims.GraftRequestsAreJudged : Prop :=
  ∀ (s : State) (a : Agent) (p : PortIx) (j : PairIx) (v : Word) (n : Nat), s.alive →
    let x := s.pairs[j]
    let now : Prop := x.req = some (v, n) ∧ n < s.tick.frames ∧ s.bound = false
    let refused (e : Nat) : Prop := exec (.graftRequest j) s = .next (s.modPair j fun x => { x with req := none, err := e })
    let accepted : Prop := (s.modPair j fun x => { x with req := none }).gRefusal j v = 0
    let only (t : State) : Prop := t.ports[upPort j].r.graft = v ∧ t.pairs[j].err = x.err ∧ t.pairs[j].req = none ∧ t.pairs[j].link = x.link ∧
      (∀ i, i ≠ j → t.pairs[i] = s.pairs[i]) ∧ (∀ q, combOf q ≠ combOf (upPort j) → t.ports[q] = s.ports[q]) ∧
      t = { s with pairs := t.pairs, ports := t.ports, combs := t.combs }
    let alone (t : State) : Prop := only t ∧ (∀ q, q ≠ upPort j → q ≠ dnPort j → t.ports[q] = s.ports[q]) ∧ t.combs = s.combs
    (s.combReady (combOf p) = true → p.val % 2 = 0 → fld v 2 0 ≤ 4 → fld v 6 4 ≤ 5 →
      exec (.pcGraft a p v) s = .next (s.modPair (pairOf p) fun x => { x with req := some (v &&& 0xFFFFF17F, s.tick.frames) })) ∧
    (s.combReady (combOf p) = true → p.val % 2 = 0 → 5 ≤ fld v 2 0 ∨ 6 ≤ fld v 6 4 →
      exec (.pcGraft a p v) s = .next (s.modPort p fun x => { x with st := { x.st with cfgRej := true } })) ∧
    (p.val % 2 = 1 → exec (.pcGraft a p v) s = .next s) ∧
    (x.req = some (v, n) → s.tick.frames ≤ n ∨ s.bound = true → exec (.graftRequest j) s = .next s) ∧
    (now → x.link = false → refused 4) ∧
    (now → x.link = true → fld v 2 0 ≠ 0 → s.psu.rail = false → refused 9) ∧
    (now → x.link = true → s.psu.rail = true → x.mode = .arming ∨ x.mode = .releasing → refused 3) ∧
    (now → x.link = true → s.psu.rail = true → x.mode = .bypass → x.closeFail = false → 2 ≤ fld v 2 0 → refused 1) ∧
    (now → accepted → x.mode = .bypass → fld v 2 0 = 1 → Gives (.graftRequest j) s fun t =>
      t.pairs[j].mode = .arming ∧ t.pairs[j].coil = true ∧ t.pairs[j].since = s.now ∧ t.pairs[j].alpha = 0 ∧ only t) ∧
    (now → accepted → x.mode = .observe → fld v 2 0 = 0 → Gives (.graftRequest j) s fun t =>
      t.pairs[j].mode = .releasing ∧ t.pairs[j].coil = false ∧ t.pairs[j].since = s.now ∧ alone t) ∧
    (now → accepted → x.mode = .observe → fld v 2 0 = 2 → Gives (.graftRequest j) s fun t =>
      t.pairs[j].mode = .substitute ∧ t.pairs[j].alpha = 32768 ∧ t.pairs[j].regen = false ∧ t.pairs[j].coil = x.coil ∧ alone t)

/-- R157, R158, R162, R165 (AUX_CONTACT_CHANGE, ARMING_COMPLETE, RLY_OPEN_FAIL, CONTACT_REPORTED_CLOSED, REGENERATION_END, RELEASING_COMPLETE,
RLY_CLOSE_FAIL, AUX_DISAGREE): what the bypass contact reports, or fails to, moves the pair between its states. -/
def Claims.ContactsMoveThePair : Prop :=
  ∀ (s : State) (j : PairIx) (isOpen : Bool), s.alive →
    let x := s.pairs[j]
    let said (t : State) (cause : Nat) : Prop := (⟨⟨0x03, 2 * j.val⟩, cause, 0, 0, s.now, none⟩ : Report) ∈ t.prop.reports
    let only (t : State) : Prop := t.pairs[j].link = x.link ∧ t.pairs[j].req = x.req ∧
      (∀ i, i ≠ j → t.pairs[i] = s.pairs[i]) ∧ (s.bound = false → ∀ q, q ≠ s.drivPort j → t.ports[q] = s.ports[q]) ∧
      t = { s with pairs := t.pairs, ports := t.ports, combs := t.combs, prop := t.prop }
    (Gives (.auxContactChange j isOpen) s fun t => t.pairs[j].auxOpen = isOpen ∧ t.pairs[j].mode = x.mode ∧ t.pairs[j].coil = x.coil ∧
      t.pairs[j].reported = (x.reported || (decide (x.mode = .arming) && isOpen)) ∧ only t) ∧
    (x.mode = .arming → x.reported = true → exec (.armingComplete j) s = .next (s.modPair j fun x => { x with mode := .observe, alpha := 0 })) ∧
    (x.reported = false → exec (.armingComplete j) s = .next s) ∧
    (x.link = true → x.mode = .arming → x.reported = false → Gives (.rlyOpenFail j) s fun t =>
      t.pairs[j] = { x with mode := .bypass, coil := false, err := 5, regen := false, alpha := 0 } ∧ said t 0x90 ∧
      t.ports[s.drivPort j].o.driving = false ∧ only t) ∧
    (x.mode = .releasing → x.auxOpen = false → exec (.contactReportedClosed j) s = .next (s.modPair j fun x => { x with reported := true })) ∧
    (x.mode = .releasing → x.regen = true → x.reported = true → Gives (.regenerationEnd j) s fun t => t.pairs[j] = { x with regen := false } ∧
      t.ports[s.drivPort j].o.driving = false ∧ only t) ∧
    (x.link = true → x.mode = .releasing → x.reported = true → x.warmWait = false → Gives (.releasingComplete j) s fun t =>
      t.pairs[j].mode = .bypass ∧ t.pairs[j].alpha = 0 ∧ t.pairs[j].coil = x.coil ∧ only t) ∧
    (x.mode = .releasing → x.reported = false → s.psu.bind = .none → Gives (.rlyCloseFail j) s fun t =>
      t.pairs[j].mode = .observe ∧ t.pairs[j].err = 6 ∧ t.pairs[j].closeFail = true ∧ t.pairs[j].regen = true ∧ said t 0x91) ∧
    (x.mode = .observe ∨ x.mode = .substitute ∨ x.mode = .blend ∨ x.mode = .hold → x.auxOpen ≠ x.coil → x.closeFail = false → x.link = true →
      Gives (.auxDisagree j) s fun t => t.pairs[j].mode = .releasing ∧ t.pairs[j].coil = false ∧ t.pairs[j].err = 7 ∧ said t 0x92 ∧
        (∀ i, i ≠ j → t.pairs[i] = s.pairs[i]) ∧ t = { s with pairs := t.pairs, ports := t.ports, combs := t.combs, prop := t.prop }) ∧
    (x.auxOpen = x.coil → exec (.auxDisagree j) s = .next s)

/-- R159, R165 (BLEND_END, RELAY_RAIL, RELAY_RAIL_RETURN): a rising ramp ends in SUBSTITUTE, a falling one in OBSERVE; the loss of the relay rail releases every pair
and opens every drive enable. -/
def Claims.BlendsEndAndTheRailFails : Prop :=
  ∀ (s : State) (j : PairIx), s.alive →
    let x := s.pairs[j]
    let a := s.alphaAt j s.now
    let down := (s.graftReg j).getLsbD 8
    let only (t : State) : Prop := t.pairs[j].coil = x.coil ∧ (∀ i, i ≠ j → t.pairs[i] = s.pairs[i]) ∧ (∀ q, q ≠ s.drivPort j → t.ports[q] = s.ports[q]) ∧
      t = { s with pairs := t.pairs, ports := t.ports }
    (x.mode = .blend → down = false → a.1 = a.2 → Gives (.blendEnd j) s fun t =>
      t.pairs[j].mode = .substitute ∧ t.pairs[j].alpha = 32768 ∧ t.pairs[j].regen = false ∧ only t) ∧
    (x.mode = .blend → down = true → a.1 = 0 → Gives (.blendEnd j) s fun t => t.pairs[j].mode = .observe ∧ t.pairs[j].alpha = 0 ∧ only t) ∧
    (x.mode = .blend → down = false → a.1 < a.2 → exec (.blendEnd j) s = .next s) ∧
    (s.psu.rail = true → Gives .relayRail s fun t => t.psu.rail = false ∧ t.rx.coil = 0 ∧ (⟨⟨0x19, 0⟩, 0xB0, 0, 0, s.now, none⟩ : Report) ∈ t.prop.reports ∧
      (∀ i : PairIx, s.pairs[i].link = true → s.pairs[i].mode ≠ .bypass → s.pairs[i].mode ≠ .releasing →
        t.pairs[i].mode = .releasing ∧ t.pairs[i].coil = false) ∧
      (∀ i : PairIx, s.pairs[i].mode = .bypass → t.pairs[i] = s.pairs[i]) ∧ t.chans = s.chans ∧ t.rules = s.rules) ∧
    (exec .relayRailReturn s = .next { s with psu := { s.psu with rail := true } })

/-- R329, R332, R333, R345 (DB_SQ_TAIL, DB_CQ_HEAD, ADM_EN, ADM_RDY): a tail that the ring and the entries fetched allow is taken, any other sets DB_ERR and is reported;
a doorbell of an absent queue pair sets DB_REJ; a head within the records written is taken and clears STALL; the admin queue is enabled with the addresses written
beforehand, its done-head word cleared, and disabled while nothing is outstanding. -/
def Claims.DoorbellsMoveTheRings : Prop :=
  ∀ (s : State) (a : Agent) (q : QpIx) (v : Word), s.alive →
    let x := s.qps[q]
    let n := v.toNat
    let fits : Prop := x.valid = true ∧ cdiff n x.t ≤ 2 ^ x.dlog ∧ cdiff n x.f ≤ 2 ^ x.dlog
    let idle : Prop := s.qps[(0 : QpIx)].idle = true ∧ s.hq.running = none ∧ s.hq.image = none
    (fits → n ≠ x.t → Gives (.dbSqTail a q v) s fun t => t.qps[q] = { x with t := n, bells := (n, s.now) :: x.bells } ∧
      (∀ r, r ≠ q → t.qps[r] = s.qps[r]) ∧ t = { s with qps := t.qps, glb := t.glb, free := t.free, prop := t.prop }) ∧
    (fits → n = x.t → exec (.dbSqTail a q v) s = .next s) ∧
    (x.valid = true → ¬fits → exec (.dbSqTail a q v) s = .next ((s.modQp q fun x => { x with dbErr := true }).report 0x0B q.val 0x78 0 0)) ∧
    (x.valid = false → exec (.dbSqTail a q v) s = .next { s with hq := { s.hq with dbRej := true } }) ∧
    (x.valid = true → cdiff n x.c ≤ cdiff x.d x.c → exec (.dbCqHead a q v) s = .next (s.modQp q fun x => { x with c := n, stall := false, faulted := false })) ∧
    (x.valid = true → cdiff x.d x.c < cdiff n x.c →
      exec (.dbCqHead a q v) s = .next ((s.modQp q fun x => { x with dbErr := true }).report 0x0B q.val 0x78 0 0)) ∧
    (v.getLsbD 0 = true → s.hq.admEn = false → s.hq.admRdy = true → s.hq.issues = true → s.hq.d3 = false → Gives (.admEn a v) s fun t =>
      t.hq = { s.hq with admEn := true } ∧ t.out = .hostWrite s.hq.admHead.toNat (zeros 4) :: s.out ∧
      t.qps[(0 : QpIx)] = { valid := true, sq := s.hq.admSq.toNat, cq := s.hq.admCq.toNat, head := s.hq.admHead.toNat, dlog := s.hq.admCfg } ∧
      (∀ r : QpIx, r ≠ 0 → t.qps[r] = s.qps[r]) ∧ t = { s with hq := t.hq, qps := t.qps, out := t.out }) ∧
    (v.getLsbD 0 = true → s.hq.admRdy = false → exec (.admEn a v) s = .next s) ∧
    (v.getLsbD 0 = false → s.hq.admEn = true → idle → exec (.admEn a v) s =
      .next { s with hq := { s.hq with admEn := false }, qps := s.qps.set 0 {} }) ∧
    (v.getLsbD 0 = false → s.hq.admEn = true → ¬idle → exec (.admEn a v) s = .next { s with hq := { s.hq with wrBusy := true } }) ∧
    exec .admRdy s = .next { s with hq := { s.hq with admRdy := true } }

/-- R335 to R337, R342, R343, R546 (SQ_FETCH, SQ_READ_RETRY): the queue whose turn it is fetches; an entry that names an accepted operation without a fault waits to be
taken in the order of fetching, one with an unknown operation ends with INVALID_FIELD; a refused read is reported once and tried again. -/
def Claims.EntriesAreFetched : Prop :=
  ∀ (s : State) (q : QpIx) (b : List Byte), s.alive → s.linkReads = true → s.fetchN q = 1 → b.length = 64 →
    let x := s.qps[q]
    let c : Cmd := { parseCmd q x.f b with seq := s.blk.fetched }
    let got (t : State) (y : Qp) : Prop := t.qps[q] = y ∧ (∀ r, r ≠ q → t.qps[r] = s.qps[r]) ∧ t.blk.fetched = s.blk.fetched + 1 ∧
      t = { s with qps := t.qps, blk := { s.blk with lastQ := t.blk.lastQ, fetched := t.blk.fetched } }
    let turn : Prop := s.fetchTurn = some q ∧ x.refused = false
    let again : Prop := x.refused = true ∧ (s.modQp q fun x => { x with refused := false }).fetchable q = true
    let waits : Qp := { x with refused := false, f := (x.f + 1) % 2 ^ 32, waiting := x.waiting ++ [c] }
    (turn → entryFault c b = none → Gives (.sqFetch q (.ok b)) s fun t => got t waits) ∧
    (turn → opcOk q c.opc = false → Gives (.sqFetch q (.ok b)) s fun t =>
      got t { x with f := (x.f + 1) % 2 ^ 32, done := x.done ++ [⟨x.f, s.now, c.cid, 0x30, 0x01, 0, c.noirq⟩] }) ∧
    (turn → exec (.sqFetch q .refused) s = .next ((s.modQp q fun x => { x with refused := true }).report 0x0B q.val 0x7C 0 0)) ∧
    (again → entryFault c b = none → Gives (.sqReadRetry q (.ok b)) s fun t => got t waits) ∧
    (again → exec (.sqReadRetry q .refused) s = .next s) ∧
    (s.fetchTurn ≠ some q → exec (.sqFetch q (.ok b)) s = .next s)

/-- R328, R347, R348, R350, R363 (MODERATION_TIMER, MSIX_UNMASK, D3HOT, D0_RETURN, PME_STATUS_CLEAR, LINK_UP, BAR2_ACCESS): counted requests are sent when the timer ends, a masked
vector's when it is unmasked; in D3hot writes wait and go in order at the return; BAR2 reads and writes local memory through its window. -/
def Claims.VectorsPowerStatesAndWindow : Prop :=
  ∀ (s : State) (v : VecIx) (a : Nat) (b : List Byte) (x : Word), s.alive →
    let y := s.hq.vecs[v]
    let here := s.hq.bar2 * 0x10000000 + x.toNat
    let inPage (n : Nat) : Prop := 1 ≤ n ∧ n ≤ 128 * 2 ^ s.hq.mps ∧ x.toNat % 4096 + n ≤ 4096 ∧ x.toNat + n ≤ 0x10000000
    (y.count ≠ 0 → 2 ≤ y.thr → y.mask = false → s.hq.fmask = false → s.hq.issues = true → s.hq.d3 = false → Gives (.moderationTimer v) s fun t =>
      t.out = .msix v.val y.msg :: s.out ∧ t.hq.vecs[v].count = 0 ∧ (∀ j, j ≠ v → t.hq.vecs[j] = s.hq.vecs[j]) ∧
      t = { s with hq := { s.hq with vecs := t.hq.vecs }, out := t.out }) ∧
    (y.count ≠ 0 → 2 ≤ y.thr → y.mask = true → Gives (.moderationTimer v) s fun t => t.out = s.out ∧ t.hq.vecs[v].pba = true ∧ t.hq.vecs[v].count = 0) ∧
    (y.pba = true → s.hq.fmask = false → s.hq.issues = true → s.hq.d3 = false → Gives (.msixUnmask (some v)) s fun t =>
      t.out = .msix v.val y.msg :: s.out ∧ t.hq.vecs[v] = { y with mask := false, pba := false } ∧ (∀ j, j ≠ v → t.hq.vecs[j] = s.hq.vecs[j]) ∧
      t = { s with hq := { s.hq with vecs := t.hq.vecs }, out := t.out }) ∧
    ((∀ j : VecIx, s.hq.vecs[j].due = false) → exec .d3hot s = .next { s with hq := { s.hq with d3 := true } }) ∧
    (∀ (q : QpIx) (r : Done), s.hq.d3 = true → s.hq.issues = true → s.hq.pmeEn = false → s.hq.recordsHeld q = 0 → s.qps[q].nextDone = some r →
      exec (.completionRecord q ⟨false, false⟩) s = .next { s with hq := { s.hq with held := s.hq.held ++ [.record q (Qp.request q s.qps[q] r)] } }) ∧
    (s.hq.d3 = true → s.hq.held = [.data a b] → s.hq.issues = true → (∀ j : VecIx, s.hq.vecs[j].due = false) →
      (∀ n : ChIx, s.chans[n].cont = none) → Gives .d0Return s fun t =>
        t.out = .hostWrite a b :: s.out ∧ t.hq = { s.hq with d3 := false, held := [] } ∧ t.qps = s.qps ∧ t.ports = s.ports) ∧
    (s.hq.d3 = false → exec .pmeStatusClear s = .next { s with hq := { s.hq with pme := false } }) ∧
    (s.hq.d3 = true → s.hq.pmeEn = true → s.hq.held ≠ [] → Gives .pmeStatusClear s fun t => t.out = .pme :: s.out ∧ t.hq = { s.hq with pme := true }) ∧
    (exec .linkUp s = .next { s with hq := { s.hq with link := true } }) ∧
    (s.canonical → inPage b.length → Gives (.bar2Access x (.write b) false) s fun t => Memory.read t.lmem here b.length = b ∧
      (∀ i, i < here ∨ here + b.length ≤ i → Memory.get t.lmem i = Memory.get s.lmem i) ∧ t = { s with lmem := t.lmem, cores := t.cores }) ∧
    (∀ n, inPage n → exec (.bar2Access x (.read n) false) s = .next { s with out := .bar2 (some (Memory.read s.lmem here n)) :: s.out }) ∧
    (∀ n, inPage n → exec (.bar2Access x (.read n) true) s =
      .next ({ s with out := .bar2 none :: s.out }.report 0x0C 0 0x80 0 0))

/-- R40, R362, R363 (FLR, LINK_LOSS): every queue pair and every setting of the host interface is as after reset, but for the payload size, every command is gone
without a record, and the time base, the tick, the link relays and the gauge stay; the image slots and keys stay too, unless an image command is under way: what it
did to flash then stands, or is undone as a whole (how far it came is free, log entry 104). -/
def Claims.FunctionResetsEndTheHostsWork : Prop :=
  ∀ (s : State) (lost : Bool), s.alive →
    let reset (t : State) : Prop := (∀ q : QpIx, t.qps[q] = {}) ∧ t.hq.admEn = false ∧ t.hq.admRdy = true ∧ t.hq.held = [] ∧ t.hq.d3 = false ∧ t.hq.running = none ∧
      (∀ v : VecIx, t.hq.vecs[v] = {}) ∧ t.hq.mps = s.hq.mps ∧ (∀ n : ChIx, t.chans[n].cur = none ∧ t.chans[n].pend = [] ∧ t.chans[n].clear = none ∧ t.chans[n].bind = s.chans[n].bind) ∧
      (⟨⟨0x0C, 0⟩, 0x81, 0, 0, s.now, none⟩ : Report) ∈ t.prop.reports ∧ t.tick = s.tick ∧ t.pairs = s.pairs ∧ t.gauge = s.gauge ∧
      s.keysKept t ∧ t.fan = s.fan ∧ t.hq.image = none ∧ t.cast.before = none ∧
      (s.cast.before = none → t.cast.slotA = s.cast.slotA ∧ t.cast.slotB = s.cast.slotB ∧ t.cast.recA = s.cast.recA ∧ t.cast.recB = s.cast.recB ∧
        t.cast.keys = s.cast.keys) ∧
      ∀ b, s.cast.before = some b → ((t.cast.slotA, t.cast.slotB) = (s.cast.slotA, s.cast.slotB) ∧ (t.cast.recA, t.cast.recB) = (s.cast.recA, s.cast.recB)) ∨
        ((t.cast.slotA, t.cast.slotB) = b.slots ∧ (t.cast.recA, t.cast.recB) = b.recs ∧ t.cast.keys = s.cast.keys)
    (Gives .flr s fun t => reset t ∧ t.hq.link = s.hq.link) ∧
    (Gives (.linkLoss lost) s fun t => reset t ∧ t.hq.link = (s.hq.link && !lost))

/-- R168, R336, R352 to R355, R357, R359, R361, R430 (NOP, IDENTIFY, CREATE_QP, DESTROY_QP, BIND_CHANNEL, SET_FEATURE, GET_FEATURE, FAULT_ACK, TIME_SYNC): the command leaves its
queue, has its effect, and ends with its status. -/
def Claims.AdminCommandsComplete : Prop :=
  ∀ (s : State) (q : QpIx) (c : Cmd) (rest : List Cmd), s.alive → s.hq.running = none → s.qps[q].waiting = c :: rest → c.q = q →
    let u (status detail result : Nat) : State := (s.modQp q fun x => { x with waiting := rest }).complete c status detail result
    let adm (opc : Nat) : Prop := q = 0 ∧ c.opc = opc
    let other : QpIx := finOf 512 c.target
    let n : ChIx := finOf 256 c.target
    let m : McIx := finOf 64 (c.at_ 21 1)
    let plain (b : Bind) : State := u 0 0 0 |>.modChan n fun x => { x with bind := b }
    (q ≠ 0 → c.opc = 0x04 → s.fetchedFirst c = true → exec (.nop q) s = .next (u 0 0 0)) ∧
    (adm 0x80 → c.addr + 4096 ≤ 0xE0000000 → Gives (.identify none) s fun t => t.qps = (u 0 0 0).qps ∧
      t.lmem = Memory.write s.lmem c.addr s.identity ∧ t = { s with qps := t.qps, lmem := t.lmem, cores := t.cores }) ∧
    (adm 0x81 → 1 ≤ c.target → c.target < 512 → s.qps[other].valid = false → c.addr % 4096 = 0 → c.at_ 16 8 % 4096 = 0 → c.at_ 24 8 % 4 = 0 →
      4 ≤ c.at_ 32 1 → c.at_ 32 1 ≤ 12 → c.at_ 34 2 ≤ 512 → s.hq.issues = true → s.hq.d3 = false → Gives .createQp s fun t =>
        t.qps[other] = { valid := true, sq := c.addr, cq := c.at_ 16 8, head := c.at_ 24 8, dlog := c.at_ 32 1, vec := c.at_ 34 2 } ∧
        t.ended c 0 0 0 ∧ t.out = .hostWrite (c.at_ 24 8) (zeros 4) :: s.out ∧ t = { s with qps := t.qps, out := t.out }) ∧
    (adm 0x81 → c.target = 0 ∨ 512 ≤ c.target ∨ s.qps[other].valid = true → exec .createQp s = .next (u 0x31 0 c.target)) ∧
    (adm 0x82 → 1 ≤ c.target → c.target < 512 → s.qps[other].valid = true → s.qps[other].idle = true → Gives .destroyQp s fun t =>
      t.qps[other] = {} ∧ t.ended c 0 0 0 ∧ t = { s with qps := t.qps }) ∧
    (adm 0x82 → 1 ≤ c.target → c.target < 512 → s.qps[other].valid = true → s.qps[other].idle = false → exec .destroyQp s = .next (u 0x30 0x05 0)) ∧
    (adm 0x83 → s.chans[n].state = .idle → s.chans[n].bind.mc = none →
      (c.at_ 16 1 % 2 = 1 → c.at_ 20 1 % 2 = 0 → exec .bindChannel s =
        .next (plain { bound := true, mc := none, core := finOf 16 (c.at_ 17 1), anyCore := c.at_ 18 1 % 2 == 1, prio := c.at_ 19 1 })) ∧
      (c.at_ 16 1 % 2 = 0 → exec .bindChannel s = .next (plain {})) ∧
      (c.at_ 16 1 % 2 = 1 → c.at_ 20 1 % 2 = 1 → s.mcs[m].bound = none → s.mcs[m].state = .idle → Gives .bindChannel s fun t =>
        t.chans[n].bind.mc = some m ∧ t.mcs[m] = { s.mcs[m] with bound := some n } ∧ t.ended c 0 0 0 ∧ (∀ j, j ≠ m → t.mcs[j] = s.mcs[j]) ∧
          t = { s with qps := t.qps, chans := t.chans, mcs := t.mcs })) ∧
    (adm 0x83 → s.chans[n].state ≠ .idle → exec .bindChannel s = .next (u 0x30 0x05 0)) ∧
    (adm 0x85 → c.at_ 16 1 = 0x02 → exec .setFeature s = .next { u 0 0 0 with hq := { s.hq with qstall := c.at_ 20 4 } }) ∧
    (adm 0x85 → c.at_ 16 1 = 0x03 → exec .setFeature s = .next { u 0 0 0 with hq := { s.hq with qfault := c.at_ 20 4 } }) ∧
    (adm 0x85 → c.at_ 16 1 = 0x01 → s.hq.vecs[(finOf 513 (c.at_ 18 2) : VecIx)].count = 0 → exec .setFeature s =
      .next ((u 0 0 0).modVec (finOf 513 (c.at_ 18 2)) fun x => { x with thr := c.at_ 20 4 % 256, time := c.at_ 20 4 / 256 % 65536, new := none })) ∧
    (adm 0x86 → c.at_ 16 1 = 0x02 → exec .getFeature s = .next (u 0 0 s.hq.qstall)) ∧
    (adm 0x86 → c.at_ 16 1 = 0x03 → exec .getFeature s = .next (u 0 0 s.hq.qfault)) ∧
    (adm 0x88 → s.prop.ackSet (c.at_ 16 4) (c.at_ 20 1 % 2 == 1) = [] → exec .faultAck s = .next (u 0x30 0x05 0)) ∧
    (adm 0x88 → s.prop.ackSet (c.at_ 16 4) (c.at_ 20 1 % 2 == 1) ≠ [] → Gives .faultAck s fun t =>
      t.prop.log = s.prop.log.map (fun x => if ackHit (c.at_ 16 4) (c.at_ 20 1 % 2 == 1) x.fseq then { x with acked := true } else x) ∧
      t.qps = (u 0 0 (s.prop.ackSet (c.at_ 16 4) (c.at_ 20 1 % 2 == 1)).length).qps ∧ t.prop.reports = s.prop.reports ∧ t.prop.fences = s.prop.fences ∧
      t = { s with qps := t.qps, prop := t.prop }) ∧
    (adm 0x8C → c.addr + 16 ≤ 0xE0000000 → Gives (.timeSync false) s fun t =>
      t.lmem = Memory.write s.lmem c.addr (leBytes 8 (s.qps[(0 : QpIx)].doorbellAt c.k) ++ leBytes 8 s.now) ∧ t.qps = (u 0 0 0).qps ∧
      t = { s with qps := t.qps, lmem := t.lmem, cores := t.cores })

/-- R178, R356 (LOAD_ROUTINE, CORE_HOLD): the code is read from local memory and every core of the mask, between two routines and in ascending order, takes it with its slot;
the command ends with the last core. A core that is not ready refuses it. -/
def Claims.RoutinesAreLoaded : Prop :=
  ∀ (s : State) (k : CoreIx) (c : Cmd) (rest : List Cmd) (code : List Byte) (more : List CoreIx), s.alive →
    let base := s.modQp 0 fun x => { x with waiting := rest }
    let front : Prop := s.hq.running = none ∧ s.qps[(0 : QpIx)].waiting = c :: rest ∧ c.opc = 0x84
    let cores := maskCores (c.at_ 16 2)
    let slot : Slot := if c.at_ 19 1 / 4 % 2 = 1 then {} else { valid := true, timed := c.at_ 19 1 % 2 == 1, entry := toW (c.at_ 28 4) }
    let took (x : Core) : Core :=
      { x with isram := Memory.write x.isram (c.at_ 20 4) code, slots := x.slots.set (c.at_ 18 1 % 32) slot (Nat.mod_lt _ (by decide)) }
    (front → (∀ j, j ∈ cores → s.nclReady (clusterOf j) = true) → c.at_ 19 1 / 2 % 2 = 1 → c.addr < 2 ^ 63 → Gives (.loadRoutine (.ok [])) s fun t =>
      t.hq = { s.hq with running := some c, loading := some ⟨c, Memory.read s.lmem c.addr (c.at_ 24 4), cores⟩ } ∧ t = { base with hq := t.hq }) ∧
    (front → cores = [k] → s.nclReady (clusterOf k) = false → exec (.loadRoutine (.ok [])) s = .next (base.complete c 0x30 0x04 (8 + (clusterOf k).val))) ∧
    (s.hq.loading = some ⟨c, code, k :: more⟩ → s.cores[k].run = none → s.cores[k].hold = none →
      (more ≠ [] → exec (.coreHold k) s = .next ({ s with hq := { s.hq with loading := some ⟨c, code, more⟩ } }.modCore k took)) ∧
      (more = [] → Gives (.coreHold k) s fun t => t.hq = { s.hq with loading := none, running := none } ∧ t.ended c 0 0 0 ∧ t.cores[k] = took s.cores[k] ∧
        (∀ j, j ≠ k → t.cores[j] = s.cores[j]) ∧ t = { s with hq := t.hq, qps := t.qps, cores := t.cores })) ∧
    (s.hq.loading = some ⟨c, code, k :: more⟩ → s.cores[k].run ≠ none → exec (.coreHold k) s = .next s)

/-- R411, R416, R420 to R422, R426, R427 (FAULT_REPORT): the report taken becomes a record with the next number and leaves the reports; class 0 does nothing more; class 2 of a
channel fences it; class 5 is grave operation: every Comb, channel and move channel is fenced and every drive enable opens. -/
def Claims.ReportsHaveTheirReaction : Prop :=
  ∀ (s : State) (r : Report) (n : ChIx), s.alive → s.nextReport = some r → r.inj = none →
    let p := s.prop
    let taken (t : State) (cls : Nat) (up : Bool) : Prop := t.prop.reports = p.reports.erase r ∧ t.prop.head = (p.head + 1) % 2 ^ 32 ∧
      ∃ y : FRec, t.prop.log = p.log ++ [y] ∧ y.r = r ∧ y.fseq = p.head ∧ y.cls = cls ∧ y.esc = up ∧ y.acked = false
    (p.log.length < 1024 → s.classOf r.cause = (0, false) → 1 ≤ p.irqMin → Gives (.faultReport []) s fun t => taken t 0 false ∧ t.prop.fences = p.fences ∧
      t.prop.degraded = p.degraded ∧ t.prop.grave = p.grave ∧ t.out = s.out ∧ t = { s with prop := t.prop, rules := t.rules }) ∧
    (p.log.length < 1024 → (s.classOf r.cause).1 = 2 → r.u = ⟨0x08, n.val⟩ → (s.punit r.u).slots = [] → s.fencedObj (.chan n) = false → s.chans[n].state ≠ .fenced →
      Gives (.faultReport []) s fun t => (∃ y, t.prop.log = p.log ++ [y] ∧ y.r = r ∧ y.cls = 2) ∧ t.fencedObj (.chan n) = true ∧ t.chans[n].state = .fenced ∧
        (∀ c, s.chans[n].cur = some c → t.ended c 0x21 0 0)) ∧
    (p.log.length < 1024 → (s.classOf r.cause).1 = 5 → p.grave = false → Gives (.faultReport []) s fun t => t.prop.grave = true ∧ t.rx.coil = 0 ∧
      (∀ c : CombIx, t.combFenced c = true) ∧ (∀ j : ChIx, t.chanFenced j = true) ∧ (∀ m : McIx, t.fencedObj (.mc m) = true))

/-- R423 to R425, R432, R433, R537 (RECOVERY, UNLOCK, GO, STRAP, STRAP_FITTED): a quiet unit's reaction ends and its fences go, grave operation does not; a valid token unlocks
injection, which works only with the strap fitted. -/
def Claims.RecoveryAndInjection : Prop :=
  ∀ (s : State) (a : Agent) (u : UnitId) (v : Word), s.alive →
    let x := s.punit u
    let p := s.prop
    let token := Memory.read s.lmem p.tok.toNat 128
    let inject : Report := ⟨⟨fld p.inj 23 16, fld p.inj 15 0⟩, fld p.inj 31 24, p.injDetail.toNat % 65536, 0, s.now, some (if v.getLsbD 3 then some (fld v 2 0) else none)⟩
    let set (p : Prop_) : Prop_ := { p with tokenErr := p.tokenErr && !v.getLsbD 10, clsEn := v.getLsbD 3, cls := fld v 2 0 }
    (1 ≤ x.cls → x.cls ≤ 3 → x.level = [] → (∀ y, y ∈ p.reports → y.u ≠ u) → Gives (.recovery u) s fun t =>
      (t.punit u).cls = 0 ∧ (∀ o, (o, some u) ∉ t.prop.fences) ∧ (∀ o, (o, none) ∈ p.fences → p.degraded = false → (o, none) ∈ t.prop.fences) ∧
      t.prop.log = p.log ∧ t.prop.grave = p.grave) ∧
    (x.cls = 0 ∨ x.cls = 5 → Gives (.recovery u) s fun t => t = { s with rules := t.rules }) ∧
    (v.getLsbD 31 = false → v.getLsbD 30 = true → p.tok.toNat + 128 ≤ 0xE0000000 → tokenOk token = true → exec (.unlock a v) s =
      .next { s with prop := { set p with unlocked := true } }) ∧
    (v.getLsbD 31 = false → v.getLsbD 30 = true → tokenOk token = false ∨ 0xE0000000 < p.tok.toNat + 128 → exec (.unlock a v) s = .next { s with prop := { set p with tokenErr := true } }) ∧
    (v.getLsbD 31 = true → v.getLsbD 30 = false → p.strap = true → p.unlocked = true →
      s.injOk (if v.getLsbD 3 then some (fld v 2 0) else none) = true → exec (.go a v) s = .next { s with prop := { set p with reports := p.reports ++ [inject] } }) ∧
    (v.getLsbD 31 = true → p.strap = false ∨ p.unlocked = false → exec (.go a v) s = .next { s with prop := { p with cfgRej := true } }) ∧
    exec .strap s = .next { s with prop := { p with strap := false } } ∧
    exec .strapFitted s = .next { s with prop := { p with strap := true } }

/-- R415, R428, R439 (CORE_ECC, ISO_BREACH, PRIMARY_OV): the unit's report waits for Propolis; a primary overvoltage also ends the mains unit's output and binds the module off. -/
def Claims.UnitsReportTheirFaults : Prop :=
  ∀ (s : State) (k : CoreIx) (c : CombIx) (addr : Word), s.alive →
    exec (.coreEcc k addr) s = .next (s.report 0x09 k.val 0xA8 0 addr) ∧
    exec (.isoBreach c) s = .next (s.report 0x05 c.val 0xF0 0 0) ∧
    (s.psu.bind = .none → Gives .primaryOv s fun t => t.psu.bind = .begun ∧ t.psu.pfc = false ∧ t.psu.lastOff = 3 ∧
      (⟨⟨0x18, 0⟩, 0xF2, 0, 0, s.now, none⟩ : Report) ∈ t.prop.reports)

/-- R438, R442 to R444, R449, R457, R458 (V_PFW, TEMPERATURE_READ, OVERLOAD, OVERDRAW, FAN_FAIL, FAN_FAIL_CLEAR): the threshold is the least voltage that meets
330 V and v_need, with its margin, at most 390 V; p_hold is the largest power whose v_need is 390 V or less; a capacitor measurement ends when the mains leaves its range or the power moves by more than ±5 % (R461); temperatures are published and judged. -/
def Claims.PowerAndTemperatureAreJudged : Prop :=
  ∀ (s : State) (obs : PsuObs) (v : Vector Int 24), s.alive →
    let p := s.psu
    let f : Fan := { s.fan with temp := v.map (clampI (-32768) 32767) }
    Gives (.vPfw obs) s (fun t => t.psu.mainsOk = obs.mainsOk ∧ t.psu.vin = obs.vin ∧ t.psu.vbus = obs.vbus ∧ t.psu.pout = obs.pout ∧ t.psu.steady = obs.steady ∧
      3300 ≤ t.psu.vPfw ∧ t.psu.vPfw ≤ 3900 ∧ t.psu.holdupLow = !vNeedLe obs.pMax p.cap p.esr 3900 ∧
      (∀ u, 3300 ≤ u → u ≤ 3900 → vNeedLe obs.pMax p.cap p.esr u = true → t.psu.vPfw ≤ u + 10 * p.margin) ∧
      (t.psu.vPfw < 3900 → ∃ u, 3300 ≤ u ∧ vNeedLe obs.pMax p.cap p.esr u = true ∧ t.psu.vPfw = u + 10 * p.margin) ∧
      (∀ w, w ≤ 260 → vNeedLe (10 * w) p.cap p.esr 3900 = true → w ≤ t.psu.pHold) ∧
      (t.psu.pHold = 0 ∨ vNeedLe (10 * t.psu.pHold) p.cap p.esr 3900 = true) ∧
      ((obs.pout.toNat : Int) ≤ t.pMains → t.fan.overload = false) ∧
      (s.gauge.capRun ≠ .idle → obs.mainsOk = false ∨ 100 * obs.pout.toNat < 95 * s.gauge.capLoad ∨ 105 * s.gauge.capLoad < 100 * obs.pout.toNat → t.gauge.capRun = .idle) ∧ (s.gauge.capRun = .idle → t.gauge = s.gauge ∧ t.psu.pfc = p.pfc)) ∧
    (f.tHot < 840 → Gives (.temperatureRead v) s fun t => t.psu = p ∧ t.fan.temp = f.temp ∧ t.fan.thermSoft = decide (8 * (f.soft : Int) < f.tHot) ∧
      (∀ c : CombIx, t.fan.hot.getLsbD c.val = decide (8 * (f.combHot : Int) < f.temp[(finOf 24 (8 + c.val) : Fin 24)])) ∧
      (8 * (f.soft : Int) < f.tHot → f.thermSoft = false → ∃ k : Fin 24, k.val < 5 ∧ f.temp[k] = f.tHot ∧
        (⟨⟨0x1A, 0⟩, 0xB9, 0, toW k.val, s.now, none⟩ : Report) ∈ t.prop.reports) ∧
      (Config.variantF0 = true → t.fan.duty = f.dutyAt f.temp[(6 : Fin 24)])) ∧
    (840 ≤ f.tHot → p.bind = .none → Gives (.temperatureRead v) s fun t => t.fan.temp = f.temp ∧ t.psu = { p with bind := .begun, lastOff := 2 } ∧ t.rx.coil = 0) ∧
    (s.fan.overload = false → s.pMains < (p.pout.toNat : Int) → exec .overload s =
      .next (({ s with fan := { s.fan with overload := true } } : State).report 0x1A 0 0xBF 0 0)) ∧
    ((p.pout.toNat : Int) ≤ s.pMains → exec .overload s = .next s) ∧
    (s.fan.overdraw = false → 1024 ≤ s.fan.negN → exec .overdraw s =
      .next (({ s with fan := { s.fan with overdraw := true } } : State).report 0x1A 0 0xBA 0 (toWi (-s.fan.left / 1000)))) ∧
    (Config.variantF0 = true → s.fan.fanFail = false → s.fan.duty ≠ 0 → exec .fanFail s =
      .next (({ s with fan := { s.fan with fanFail := true, duty := 100 } } : State).report 0x1A 0 0xBC 0 0)) ∧
    (s.fan.fanFail = true → Gives .fanFailClear s fun t => t.fan.fanFail = false ∧
      (Config.variantF0 = true → t.fan.duty = ({ s.fan with fanFail := false } : Fan).dutyAt s.fan.temp[(6 : Fin 24)]))

/-- R450, R452, R453, R455, R456 (DOMAIN_OFF, DRAIN_TIMEOUT, DOMAIN_UP, AUTO_GATE): a draining domain turns off when nothing remains in it, or is fenced at the limit; a Comb's ports go
back to their cold-reset registers; idle clusters and long curtailed domains are gated. -/
def Claims.DomainsDrainAndComeUp : Prop :=
  ∀ (s : State) (n : Fin 32), s.alive →
    let down : Dom := if s.fan.req.getLsbD n.val || s.fan.auto.getLsbD n.val then .off else .rising
    (s.fan.dom[n] = .draining → s.drained n = true → Gives (.domainOff n) s fun t => t.fan.dom = s.fan.dom.set n down ∧
      (∀ c : CombIx, n.val = 16 + c.val → t.combReady c = false ∧ ∀ q : PortIx, combOf q = c → t.ports[q] = s.ports[q].cold)) ∧
    (¬(s.fan.dom[n] = .draining ∧ s.drained n = true) → Gives (.domainOff n) s fun t => t = { s with rules := t.rules }) ∧
    (s.fan.dom[n] = .draining → s.drained n = false → Gives (.drainTimeout n) s fun t => t.fan.dom[n] = down ∧
      (⟨⟨0x1A, 0⟩, 0xBD, 0, toW n.val, s.now, none⟩ : Report) ∈ t.prop.reports ∧
      (∀ (k : CoreIx) (r : Run), (clusterOf k).val + 1 = n.val → s.cores[k].run = some r → r.scout = false → s.chans[r.ch].halting = false →
        t.cores[k].run = none ∧ t.chans[r.ch].state = .check ∧ t.chans[r.ch].cause = 0x22 ∧ t.chans[r.ch].detail = n.val)) ∧
    (s.fan.dom[n] = .rising → Gives (.domainUp n) s fun t => t = { s with fan := { s.fan with dom := s.fan.dom.set n .on }, rules := t.rules }) ∧
    (1 ≤ n.val → n.val ≤ 4 → s.fan.dom[n] = .on → s.fan.autoGate = true → s.movesName n.val = false →
      (∀ i : ChIx, s.chans[i].bind.bound = true → (clusterOf s.chans[i].bind.core).val + 1 = n.val → 256 ≤ s.chans[i].idleN) →
      Gives (.autoGate n) s fun t => t.fan.dom[n] = .draining ∧ t.fan.auto.getLsbD n.val = true) ∧
    (n.val = 5 → s.fan.dom[n] = .on → 1024 ≤ s.fan.passN.1 → Gives (.autoGate n) s fun t => t.fan.dom[n] = .draining ∧ t.fan.auto.getLsbD n.val = true) ∧
    (n.val = 6 → s.fan.dom[n] = .on → 1024 ≤ s.fan.passN.2.1 → Gives (.autoGate n) s fun t => t.fan.dom[n] = .draining ∧ t.fan.auto.getLsbD n.val = true) ∧
    (n.val = 5 → s.fan.dom[n] = .off → s.fan.auto.getLsbD n.val = true → 1024 ≤ s.fan.passN.2.2.1 → Gives (.autoGate n) s fun t =>
      t.fan.dom[n] = .rising ∧ t.fan.auto.getLsbD n.val = false) ∧
    (n.val = 6 → s.fan.dom[n] = .off → s.fan.auto.getLsbD n.val = true → 1024 ≤ s.fan.passN.2.2.2 → Gives (.autoGate n) s fun t =>
      t.fan.dom[n] = .rising ∧ t.fan.auto.getLsbD n.val = false)

/-- R461, R468 (CAP_MEASUREMENT, ESR_PULSE, CAP_MEASUREMENT_END): a measurement runs only under its conditions, with the power-factor stage stopped; its end publishes
capacitance and ESR, raises CAP_WEAR below 150 µF and restarts the stage; the seventh failure in a row raises MEAS_FAIL. -/
def Claims.CapacitorsAreMeasured : Prop :=
  ∀ (s : State) (mv e start : Nat) (x : Option Nat) (en : Option Nat) (h : HookWrites), s.alive → s.psu.bind = .none →
    let p := s.psu
    let g := s.gauge
    let c := 2000 * e / (start ^ 2 - s.vEnd ^ 2) % 65536
    let allowed : Prop := p.steady = true ∧ p.mainsOk = true ∧ p.pfw = false ∧ 200 ≤ p.pout.toNat ∧ p.pout.toNat ≤ 2000 ∧ 3950 ≤ p.vbus.toNat ∧ p.vbus.toNat ≤ 4050 ∧ s.vEnd ≤ 3920
    let loadHeld : Prop := 95 * g.capLoad ≤ 100 * p.pout.toNat ∧ 100 * p.pout.toNat ≤ 105 * g.capLoad
    let failed (t : State) : Prop := t.gauge.capFails = g.capFails + 1 ∧ t.psu.cap = p.cap ∧ t.psu.esr = p.esr ∧
      (g.capFails = 6 → t.gauge.measFail = true ∧ (⟨⟨0x1B, 0⟩, 0xC7, 1, 0, s.now, none⟩ : Report) ∈ t.prop.reports) ∧
      (g.capFails ≠ 6 → t.gauge.measFail = g.measFail ∧ t.prop = s.prop)
    (g.capEn = true → g.capRun = .idle → s.glb.gauge = true → allowed → exec .capMeasurement s =
      .next { s with psu := { p with pfc := false }, gauge := { g with capRun := .running p.vbus.toNat none, capLoad := p.pout.toNat } }) ∧
    (g.capEn = true → g.capRun = .idle → s.glb.gauge = true → ¬allowed → Gives .capMeasurement s fun t => failed t ∧ t.psu = p ∧ t.gauge.capRun = .idle) ∧
    (g.capRun = .running start x → exec (.esrPulse mv) s = .next { s with gauge := { g with capRun := .running start (some (mv / 2 % 65536)) } }) ∧
    (g.capRun = .running start x → p.mainsOk = true → loadHeld → s.vEnd ≤ 3920 → Gives (.capMeasurementEnd (some e) h) s fun t =>
      t.psu.cap = c ∧ t.psu.esr = x.getD p.esr ∧ t.psu.pfc = true ∧ t.gauge.capRun = .idle ∧ t.gauge.capFails = 0 ∧
      (c < 1500 → 1500 ≤ p.cap → (⟨⟨0x18, 0⟩, 0xC1, 0, toW c, s.now, none⟩ : Report) ∈ t.prop.reports)) ∧
    (g.capRun = .running start x → en = none ∨ p.mainsOk = false ∨ ¬loadHeld ∨ 3920 < s.vEnd → Gives (.capMeasurementEnd en h) s fun t => failed t ∧ t.psu.pfc = true ∧ t.gauge.capRun = .idle)

/-- R462 to R465, R468, R386 (ISO_MEASUREMENT, SLACK_MEASUREMENT, ZENER_COMPARISON): each result is published and moves its margin: the Scout margin above 8.0 ns and
REFLEX_PATH, the cluster's supply by 10 mV steps between 0.75 V and 0.90 V, the calibration interval; a Comb that is off or not ready is skipped. -/
def Claims.MarginsFollowTheMeasurements : Prop :=
  ∀ (s : State) (c : CombIx) (k : Fin 4) (d : Byte) (n : BitVec 16) (held : Bool) (z : Int) (h : HookWrites), s.alive → s.glb.gauge = true →
    let g := s.gauge
    let isos := g.iso.set c d.toNat
    let v := g.volt[k]
    let zc := clampI (-32768) 32767 z
    let up : Nat := if n.toNat < 150 then Nat.min 90 (v + 1) else if 250 < n.toNat then Nat.max 75 (v - 1) else v
    (s.combSkipped c = true → exec (.isoMeasurement c d h) s = .next s ∧ exec (.zenerComparison c z h) s = .next s) ∧
    (s.combSkipped c = false → Gives (.isoMeasurement c d h) s fun t => t.gauge.iso = isos ∧ t.gauge.isoLow.getLsbD c.val = decide (32 < d.toNat) ∧
      t.rx.path = Nat.min 255 (reflexPath isos) ∧ t.rx.slow = decide (38 < reflexPath isos) ∧
      (∀ a b : CombIx, a ≠ b → 18 + (isos[a] + isos[b] + 3) / 4 ≤ reflexPath isos) ∧
      (32 < d.toNat → g.isoLow.getLsbD c.val = false → (⟨⟨0x05, c.val⟩, 0xC2, 0, toW d.toNat, s.now, none⟩ : Report) ∈ t.prop.reports)) ∧
    Gives (.slackMeasurement k n held h) s (fun t => t.gauge.volt = g.volt.set k up ∧ t.gauge.slack = g.slack.set k n.toNat ∧
      (up = 90 → t.fan.tLow = true) ∧ (up ≠ 90 → t.fan.tLow = s.fan.tLow) ∧
      (n.toNat < 80 → v = 90 → held = true → t.gauge.margin.getLsbD k.val = true ∧ (g.margin.getLsbD k.val = false →
        ∀ i : CoreIx, clusterOf i = k → (⟨⟨0x09, i.val⟩, 0xC5, 0, toW n.toNat, s.now, none⟩ : Report) ∈ t.prop.reports)) ∧
      (80 ≤ n.toNat → t.gauge.margin.getLsbD k.val = false)) ∧
    (s.combSkipped c = false → Gives (.zenerComparison c z h) s fun t => t.gauge.zen = g.zen.set c zc ∧ (200 < zc.natAbs → t.gauge.calInt[c] = 1 ∧
      ((g.zen[c]).natAbs ≤ 200 → (⟨⟨0x05, c.val⟩, 0xC4, 0, toWi zc, s.now, none⟩ : Report) ∈ t.prop.reports)))

/-- R441, R484, R486, R488, R490 (POWER_UP, IMAGE_VERIFIED): power-up leaves cold reset, with flash, keys, ledger, link relays and LAST_OFF kept; the first candidate slot that
verifies runs, else none does and the module waits without an image. -/
def Claims.PowerUpAndTheRunningImage : Prop :=
  ∀ (s : State) (nor : Bool) (h : HookWrites) (slot : Bool) (b : List Byte),
    let c := s.cast
    let ready : Prop := s.psu.bind = .none ∧ s.glb.image = false ∧ c.booting = true ∧ c.noImage = false
    (s.psu.bind = .off → Gives .powerUp s fun t => t.psu.bind = .none ∧ t.psu.lastOff = s.psu.lastOff ∧ t.glb = State.reset.glb ∧ t.chans = State.reset.chans ∧
      t.ports = State.reset.ports ∧ t.rules = State.reset.rules ∧ t.qps = State.reset.qps ∧ t.rx = State.reset.rx ∧ t.cast.keys = c.keys ∧ t.cast.slotA = c.slotA ∧
      t.cast.slotB = c.slotB ∧ t.cast.recA = c.recA ∧ t.cast.recB = c.recB ∧ t.gauge.copy0 = s.gauge.copy0 ∧ t.gauge.copy1 = s.gauge.copy1 ∧
      (∀ j : PairIx, t.pairs[j].link = s.pairs[j].link ∧ t.pairs[j].coil = false ∧ t.pairs[j].mode = .bypass) ∧
      (s.psu.lastOff = 2 → (⟨⟨0x18, 0⟩, 0xBB, 0, 0, 0, none⟩ : Report) ∈ t.prop.reports)) ∧
    (s.alive → exec .powerUp s = .next s) ∧
    (ready → (s.verifySlots s.candidates nor).1 = some (slot, b) → Gives (.imageVerified nor h) s fun t => t.glb.image = true ∧ t.cast.run = some slot ∧ t.cast.image = b ∧
      t.cast.noImage = false ∧ t.cast.fallback = decide (c.newest ≠ some slot) ∧ t.glb.ncl = 0xF ∧ t.glb.reflex = true ∧ t.rx.armed = true ∧
      (t.tick.role ≠ .follower → t.glb.tick = true) ∧ t.glb.comb = s.glb.comb ∧ t.glb.move = s.glb.move) ∧
    (ready → (s.verifySlots s.candidates nor).1 = none → Gives (.imageVerified nor h) s fun t => t.cast.noImage = true ∧ t.cast.run = none ∧ t.cast.flags = 0b111 ∧
      t.glb = s.glb ∧ ∀ p : PortIx, t.ports[p].r.mode = 0) ∧
    (s.alive → s.glb.image = true → Gives (.imageVerified nor h) s fun t => t = { s with rules := t.rules })

/-- R94, R95, R144, R455, R491, R493, R494 (START_UP_CALIBRATION, COMB_READY, LOCAL_MEMORY_INITIALISED, ON_PERIOD, FW_HALT): calibration sets the link relays and leaves
every cell in IDLE; a Comb's bit stands once its coefficients are in force; a policy run reaches the registers its hook may write and no other. -/
def Claims.FunctionsComeUp : Prop :=
  ∀ (s : State) (c : CombIx) (x : CellCal) (h : HookWrites) (v : Word), s.alive → s.psu.bind = .none →
    let p : PortIx := finOf 128 (8 * c.val + x.cell.val)
    let mayReady : Prop := s.glb.image = true ∧ s.glb.tick = true ∧ s.fan.dom[(finOf 32 (16 + c.val) : Fin 32)] = .on ∧ s.combReady c = false ∧ s.cast.booting = false ∧ s.tick.phase = .edge
    (s.glb.image = true → s.cast.booting = true → Gives .startUpCalibration s fun t => t.cast = { s.cast with booting := false, restarting := false, calib := 0xFFFF } ∧
      (∀ q : PortIx, t.ports[q] = s.ports[q].cold) ∧ (∀ j : PairIx, t.pairs[j].link = bit (imgGraft s.cast.image j) 7 ∧ t.pairs[j].coil = false ∧ t.pairs[j].mode = .bypass) ∧
      t = { s with cast := t.cast, ports := t.ports, combs := t.combs, pairs := t.pairs, rules := t.rules }) ∧
    (mayReady → s.cast.calib.getLsbD c.val = false → Gives (.combReady c [x]) s fun t => t.glb.comb = s.glb.comb ||| (1#16 <<< c.val) ∧ t.combReady c = true ∧
      t.ports[p].st.cal = x.sets ∧ t.ports[p].st.calFail = x.fail ∧ t.ports[p].r = s.ports[p].r ∧ (∀ q, q ≠ p → t.ports[q] = s.ports[q]) ∧
      t.gauge = { s.gauge with calAt := s.gauge.calAt.set c s.gauge.pon } ∧
      (x.fail = true → (⟨⟨0x01, p.val⟩, 0x06, 0, 0, s.now, none⟩ : Report) ∈ t.prop.reports) ∧ (x.fail = false → t.prop = s.prop)) ∧
    (mayReady → s.cast.calib.getLsbD c.val = true → Gives (.combReady c []) s fun t => t.combReady c = true ∧ t.cast.calib.getLsbD c.val = false) ∧
    (¬mayReady → Gives (.combReady c []) s fun t => t = { s with rules := t.rules }) ∧
    (s.glb.move = false → s.cast.restarting = false ∨ s.cast.booting = true → Gives .localMemoryInitialised s fun t => t.glb = { s.glb with move := true } ∧
      t.lmem = s.lmem ∧ t.ports = s.ports ∧ t.chans = s.chans ∧ t.rules = s.rules) ∧
    (s.firmware = false → exec (.onPeriod h) s = .next s ∧ exec .fwHalt s = .next s) ∧
    Gives (.onPeriod h) s (fun t => t = { s with fan := t.fan, psu := t.psu }) ∧
    (s.firmware = true → fld v 7 0 ≤ 40 → exec (.onPeriod [(0xC014, v)]) s = .next { s with psu := { s.psu with margin := fld v 7 0 } }) ∧
    (s.firmware = true → exec .fwHalt s = .next { s with cast := { s.cast with fwHalt := true } })

/-- R165, R495, R499, R500 (USB_REQUEST, USB_BUS_RESET, LOSS_WITHOUT_WARNING): the service port answers each request with a reply while the image allows it, and its session
ends with a bus reset; a loss of all supplies lets every coil fall and every output float. -/
def Claims.TheServicePortAndALossOfSupplies : Prop :=
  ∀ (s : State) (q d : List Byte) (cause res : Nat), s.alive →
    let c := s.cast
    let opc := leAt q 0 1
    let ok : Prop := c.flags.getLsbD 1 = true ∧ q.length = 32 ∧ s.usbRefused q = none
    let part := ((s.logOf (leAt q 12 1)).drop (leAt q 4 4)).take (leAt q 8 4)
    let verify := verifyCause c.keys (Memory.read (c.slot c.stageSlot) 0 (min (leAt q 8 4) slotSize)) (leAt q 8 4) true ((stageList 0 (leAt q 8 4)).all fun x => c.staged.contains x)
    (c.flags.getLsbD 1 = false → exec (.usbRequest q d) s = .next s) ∧
    (c.flags.getLsbD 1 = true → q.length ≠ 32 → exec (.usbRequest q d) s = .fault (.malformed "USB_REQUEST")) ∧
    (c.flags.getLsbD 1 = true → q.length = 32 → s.usbRefused q = some (cause, res) → exec (.usbRequest q d) s = .next (s.emit (usbReply 0x30 cause res []))) ∧
    (opc ∉ [0x80, 0x87, 0x8A, 0x8B] → s.usbRefused q = some (1, 0)) ∧
    (ok → opc = 0x80 → exec (.usbRequest q d) s = .next (s.emit (usbReply 0 0 0 s.identity))) ∧
    (ok → opc = 0x87 → exec (.usbRequest q d) s = .next (s.emit (usbReply 0 0 part.length part))) ∧
    (ok → opc = 0x8A → s.canonical → s.psu.bind = .none → c.owner = .usb → leAt q 8 4 = 4096 → d.length = 4096 → Gives (.usbRequest q d) s fun t =>
      t.out = usbReply 0 0 0 [] :: s.out ∧ t.cast.staged = c.staged ++ [leAt q 4 4 / 4096] ∧ Memory.read (t.cast.slot c.stageSlot) (leAt q 4 4) 4096 = d ∧
      t.cast.slot (!c.stageSlot) = c.slot (!c.stageSlot) ∧ t = { s with out := t.out, cast := t.cast, gauge := t.gauge }) ∧
    (ok → opc = 0x8B → s.psu.bind = .none → verify ≠ 0 → Gives (.usbRequest q d) s fun t =>
      t.out = usbReply 0x30 0x08 verify [] :: s.out ∧ t.cast.owner = .none ∧ t.cast.staged = [] ∧ t.cast.recA = c.recA ∧ t.cast.recB = c.recB ∧ t.cast.keys = c.keys ∧
      t = { s with out := t.out, cast := t.cast }) ∧
    (ok → opc = 0x8B → s.psu.bind = .none → verify = 0 → Gives (.usbRequest q d) s fun t =>
      (∃ seq, t.out = usbReply 0 0 seq [] :: s.out) ∧ t.cast.owner = .none ∧ t.cast.staged = [] ∧ t.cast.next = some c.stageSlot ∧
      t = { s with out := t.out, cast := t.cast, gauge := t.gauge }) ∧
    (c.owner = .usb → exec .usbBusReset s = .next { s with cast := { c with owner := .none, staged := [] } }) ∧
    (c.owner ≠ .usb → exec .usbBusReset s = .next s) ∧
    Gives (.lossWithoutWarning false) s (fun t => t.psu = { s.psu with bind := .off } ∧ t.rx = { s.rx with coil := 0, aux := 0 } ∧
      (∀ j : PairIx, t.pairs[j].coil = false ∧ t.pairs[j].link = s.pairs[j].link) ∧ (∀ p : PortIx, t.ports[p].o.held = .hiz ∧ t.ports[p].o.driving = false) ∧
      (c.before = none → t.cast = c ∧ t.hq = s.hq) ∧ (s.gauge.queue = [] → t.gauge = s.gauge) ∧ t.cast.before = none ∧ t.gauge.queue = [] ∧
      t = { s with psu := t.psu, rx := t.rx, pairs := t.pairs, ports := t.ports, cast := t.cast, hq := t.hq, gauge := t.gauge, free := t.free })

/-- R520, R535 (IDENTIFY_CYCLE, CARD_REMOVAL, CARD_DETECT): a card that answers DONE with a nonzero word is identified; its removal takes domain 7 down and the instructions
that hold their cores trap with MZ_DOWN. -/
def Claims.TheCardIsIdentifiedAndRemoved : Prop :=
  ∀ (s : State) (w v cmd a b : Word) (st : BitVec 2) (k : CoreIx) (gd : BitVec 5) (own fitted : Bool), s.alive →
    let m := s.mezz
    let up : Prop := s.psu.bind = .none ∧ (s.fan.dom[(7 : Fin 32)] = .on ∨ s.fan.dom[(7 : Fin 32)] = .rising)
    let missed : State := { s with mezz := { m with id := 0, idOk := false, idErr := true } }
    (up → m.fitted = true → w ≠ 0 → exec (.identifyCycle (some (0, w))) s = .next { s with mezz := { m with id := w, idOk := true, idErr := false } }) ∧
    (up → st ≠ 0 ∨ w = 0 ∨ m.fitted = false → exec (.identifyCycle (some (st, w))) s = .next missed) ∧
    (up → exec (.identifyCycle none) s = .next missed) ∧
    (s.fan.dom[(7 : Fin 32)] ≠ .off → m.fitted = true → Gives .cardRemoval s fun t => t.fan.dom[(7 : Fin 32)] = .off ∧
      t.mezz.fitted = false ∧ t.mezz.id = 0 ∧ t.mezz.idOk = false ∧ t.mezz.bus = none ∧ t.mezz.rel = none) ∧
    (s.fan.dom[(7 : Fin 32)] ≠ .off → m.fitted = true → m.rel = none → s.mzHeld = [(k, v)] → s.cores[k].hold = some (.mezz gd v cmd a b own) →
      s.cores[k].slot = none → s.cores[k].tr.en = true → s.cores[k].tr.inTrap = false → Gives .cardRemoval s fun t => t.cores[k].hold = none ∧
        t.cores[k].tr.cause = 0x09 ∧ t.cores[k].tr.einstr = v ∧ t.cores[k].tr.ebad = 0 ∧ t.cores[k].pc = s.cores[k].tr.tvec) ∧
    (s.fan.dom[(7 : Fin 32)] = .off → exec (.cardDetect fitted) s = .next { s with mezz := { m with fitted := fitted, id := if fitted then m.id else 0 } }) ∧
    (s.fan.dom[(7 : Fin 32)] ≠ .off → exec (.cardDetect fitted) s = .next s)

/-! ### Obligations -/

/-- A step takes the command at the front of the queue and is that command on the state with the queue's rest; on an empty queue one period of the
port clock passes, which moves the time base on where the tick runs, never beyond the frame's next point, and nothing else (the model's queue and time,
log entries 1 and 5). -/
def Obligations.StepRunsTheFrontCommand : Prop :=
  (∀ (s : State) (c : Instr) (rest : List Instr), s.pending = c :: rest → step s = exec c { s with pending := rest }) ∧
  (∀ s : State, s.pending = [] → ∃ t, step s = .next t ∧ t = { s with tick := { s.tick with now := t.tick.now, ofs := t.tick.ofs } } ∧
    s.tick.now ≤ t.tick.now ∧ (s.glb.tick = false → t = s) ∧
    (s.alive → s.glb.tick = true → s.tick.slew = 0 → s.tick.now = s.tick.edge + s.tick.ofs → s.tick.ofs % 16 = 0 → s.tick.ofs + 16 ≤ s.tick.point →
      t.tick.now = s.tick.now + 16))

/-- What reset leaves, where the spec gives the value: the tick period of R36, every port in IDLE with an unlocked safe state of
high impedance, every pair in BYPASS with its coil off, every drive enable open with E-stop active, the vectors unmoderated, every channel and
move channel idle, no routine loaded, no fence, the four quiet times, the E-stop settings, no queue pair, and every byte of the SRAMs 0. -/
def Obligations.ResetLeavesTheGivenValues : Prop :=
  let s := State.reset
  (s.tick.act = 0x02001E84 ∧ s.tick.period = 0x02001E84 ∧ s.tick.now = 0 ∧ s.tick.role = .standalone) ∧
  (∀ p : PortIx, s.ports[p].r.mode = 0 ∧ s.ports[p].a.mode = 0 ∧ s.ports[p].r.safe = 0x20000000 ∧ s.ports[p].safeLock = false ∧
    s.ports[p].o.driving = false ∧ s.ports[p].ev.unread = []) ∧
  (∀ j : PairIx, s.pairs[j].mode = .bypass ∧ s.pairs[j].coil = false ∧ s.pairs[j].alpha = 0) ∧
  (s.rx.estop = true ∧ s.rx.coil = 0 ∧ s.rx.deMask = 0xF ∧ s.rx.discMs = 100 ∧ s.rx.filt = 1000 ∧ s.rx.armed = false) ∧
  (∀ r : RuleIx, s.rules[r].en = false ∧ s.rules[r].lock = false ∧ s.rules[r].holding = false) ∧
  (∀ n : ChIx, s.chans[n].state = .idle ∧ s.chans[n].bind.bound = false ∧ s.chans[n].post.size = 4 ∧ s.chans[n].sc.depA = 0xFFFFFFFF) ∧
  (∀ m : McIx, s.mcs[m].state = .idle ∧ s.mcs[m].bound = none) ∧
  (∀ k : CoreIx, s.cores[k].cr.spLim = 0x10000 ∧ s.cores[k].cr.mzTimeout = 1000 ∧ s.cores[k].tr.en = false ∧ s.cores[k].dsram = [] ∧
    ∀ i : Fin 32, s.cores[k].slots[i].valid = false) ∧
  (s.prop.quiet.toList = [100, 1000, 10000, 60000] ∧ s.prop.irqMin = 1 ∧ s.prop.degPrio = 4 ∧ s.prop.fences = [] ∧ s.prop.grave = false) ∧
  (s.hq.admEn = false ∧ s.hq.admCfg = 4 ∧ s.hq.qstall = 10 ∧ s.hq.qfault = 100 ∧ ∀ q : QpIx, s.qps[q].valid = false) ∧
  (∀ v : VecIx, s.hq.vecs[v].thr = 1 ∧ s.hq.vecs[v].time = 0) ∧ s.pending = []

/-- The state after reset meets the invariants: every memory is in canonical form (log entry 8) and no coil stands energised at an open link. -/
def Obligations.ResetMeetsTheInvariants : Prop := State.reset.canonical ∧ State.reset.coilsLinked

/-- Every step keeps every memory in its canonical form (the model's form of memory, log entry 8). -/
def Obligations.EveryStepKeepsMemoriesCanonical : Prop :=
  ∀ s t : State, step s = .next t → s.canonical → t.canonical

/-- No step energises a coil at an open link relay; link relays move in START_UP_CALIBRATION alone. -/
def Obligations.NoCoilWithoutItsLinkAndNoLinkMoves : Prop := Claims.NoStepEnergisesACoilWithoutALink ∧ Claims.LinkRelaysMoveAtStartUpOnly

/-- R482: a key slot that is written keeps its digest through every step. -/
def Obligations.WrittenKeySlotsStay : Prop :=
  ∀ s t : State, step s = .next t → s.keysKept t

/-- R40, R49, R60: once the TICK bit is set, no command but a power-up after a power-off clears it, and none sets the time base back. -/
def Obligations.TheTickDoesNotStop : Prop :=
  ∀ (s t : State) (c : Instr), c ≠ .powerUp → s.glb.tick = true → exec c s = .next t → t.glb.tick = true ∧ s.tick.now ≤ t.tick.now

/-- Results of addition, logic, shifts, comparisons, saturation and multiplication. -/
def Obligations.ArithmeticAndLogicResults : Prop := Claims.AddAndLogicResults ∧ Claims.ShiftResults ∧ Claims.CompareAndSaturateResults ∧ Claims.MultiplyResults

/-- Windowed addresses of loads and stores, and the accesses that trap. -/
def Obligations.WindowedAddressesAndBadAccesses : Prop := Claims.WindowedAddresses ∧ Claims.BadAccessesTrap

/-- Loads from data SRAM, far loads that hold the core, and their return. -/
def Obligations.LoadsAndTheirReturn : Prop := Claims.WhatLoadsSee ∧ Claims.LoadsFromDataSram ∧ Claims.FarLoadsHoldTheCore ∧ Claims.LoadReturnCompletes

/-- Stores are posted, and write their bytes when they arrive. -/
def Obligations.StoresAndTheirArrival : Prop := Claims.StoresArePosted ∧ Claims.StoreArrivalWritesItsBytes

/-- R226 (TAS, LR, SC) in data SRAM, after the core's earlier stores there: TAS gives the old word and writes 1 in the same access; LR gives the word
and reserves its 32-byte granule; SC writes and gives 0 under a reservation of its granule, gives 1 and writes nothing otherwise, and ends the
reservation in both cases. -/
def Obligations.AtomicsInDataSram : Prop :=
  ∀ (s : State) (k : CoreIx) (gd ga gb : BitVec 5), s.goes k → s.cores[k].inScout = false →
    let c := s.seen k
    let a := c.rd ga
    let u := (s.begun k).drainRegion k (.data 0)
    let did (f : Core → Core) : State := (u.modCore k fun d => (f d).goOn).settle
    let old : Word := BitVec.ofNat 32 (ofLeBytes (u.cores[k].dataBytes a.toNat 4))
    let stored (d : Core) (v : Word) : Core :=
      { d with dsram := Memory.write d.dsram a.toNat (leBytes 4 v.toNat)
               fresh := d.fresh ++ [⟨a.toNat, Memory.read d.dsram a.toNat 4, leBytes 4 v.toNat, 3⟩] }
    let rsv (d : Core) (r : Option (Nat × Nat)) : Core := { d with cr := { d.cr with rsv := r } }
    a.toNat < 0x20000 → a.toNat % 4 = 0 →
    exec (.tas k gd ga) s = .next (did fun d => (stored d 1).later gd old 3) ∧
    exec (.lr k gd ga) s = .next (did fun d =>
      ({ d with cr := { d.cr with rsv := some (a.toNat / 32, c.cr.lmw), granule := a.toNat / 32 } } : Core).later gd old 3) ∧
    ((∃ m, c.cr.rsv = some (a.toNat / 32, m)) →
      exec (.sc k gd ga gb) s = .next (did fun d => (stored (rsv d none) (c.rd gb)).later gd 0 3)) ∧
    ((∀ m, c.cr.rsv ≠ some (a.toNat / 32, m)) →
      exec (.sc k gd ga gb) s = .next (did fun d => (rsv d none).later gd 1 3))

/-- Branches open a delay slot; jumps, calls and returns; where execution goes on. -/
def Obligations.BranchesJumpsAndCalls : Prop := Claims.BranchesOpenADelaySlot ∧ Claims.JumpsCallsAndReturns ∧ Claims.WhereExecutionGoesOn

/-- Bad targets, bad stacks and flow in a slot or at a loop end trap. -/
def Obligations.IllegalFlowTraps : Prop := Claims.BadTargetsAndStacksTrap ∧ Claims.FlowIsIllegalInSlotAndAtLoopEnd

/-- What a trap saves and where it goes, and the return from it. -/
def Obligations.TrapsAreTakenAndLeft : Prop := Claims.TrapEntry ∧ Claims.TrapReturn

/-- Loops and repeats open; SYNC and DONE. -/
def Obligations.LoopsRepeatsSyncAndDone : Prop := Claims.LoopAndRepeatOpen ∧ Claims.SyncAndDone

/-- MFC and MTC on every control register. -/
def Obligations.ControlRegistersAreReadAndWritten : Prop := Claims.ControlRegisterReads ∧ Claims.ControlRegisterWrites

/-- String instructions and elements of a repeat pair. -/
def Obligations.StringAndRepeatElements : Prop := Claims.StringElements ∧ Claims.FarElementsHoldTheCore ∧ Claims.RepeatPairElements

/-- Results of division, angles and magnitudes. -/
def Obligations.DivisionAndAngleResults : Prop := Claims.DivisionResults ∧ Claims.AngleAndMagnitudeResults

/-- Port instructions, mezzanine transactions and their answers. -/
def Obligations.PortInstructionsAndTheMezzanine : Prop := Claims.PortInstructions ∧ Claims.MezzanineTransactions ∧ Claims.MezzanineAnswers

/-- RUN_CHAIN, RESUME_CHANNEL and CLEAR_CHANNEL by the state of the channel; the halt at its boundary. -/
def Obligations.ChannelCommands : Prop := Claims.RunChainStartsOrWaits ∧ Claims.ResumeChannelEffects ∧ Claims.ClearChannelHalts ∧ Claims.HaltsAtTheBoundary

/-- Entries are read and checked; control entries have their effect. -/
def Obligations.EntriesAndControl : Prop := Claims.EntriesAreRead ∧ Claims.ControlEntries

/-- R189: a JUMP, CALLC or BRCX to its own address ends the chain with PROGRAM_CHECK, cause SELF_TARGET, with the cx registers and memory as they were; the engine counts
control and flow entries, a device operation, MOVE or WAITF starts the count again, and the 64th in a row ends the chain with cause NO_PROGRESS. -/
def Obligations.ChainsThatCannotAdvanceEnd : Prop :=
  ∀ (s : State) (n : ChIx) (e : Cce) (o : Op) (g : Seg) (b : Bool) (m : McIx),
    let x := s.chans[n]
    let stands (op : Nat) : Prop := s.alive ∧ x.ent = some e ∧ e.op = op ∧ x.state = .active ∧ x.wait = .executing ∧ x.cont = none ∧ x.sc.release = [] ∧ x.halting = false
    let checked (i : Instr) (cause : Nat) : Prop := Gives i s fun t => t.chans[n].state = .check ∧ t.chans[n].cause = cause ∧ t.chans[n].cx = x.cx ∧ t.lmem = s.lmem ∧
      t.chans[n].cur = none ∧ ∀ c, x.cur = some c → t.ended c 0x10 cause 0
    let counts (i : Instr) : Prop := Gives i s fun t => t.chans[n].ctl = x.ctl + 1
    let clears (i : Instr) : Prop := Gives i s fun t => t.chans[n].ctl = 0
    (e.addr = x.cce → (stands 0x03 → checked (.jump n) 0x0A) ∧ (stands 0x04 → checked (.callc n b) 0x0A) ∧ (stands 0x07 → checked (.brcx n) 0x0A)) ∧
    (x.ctl = 63 → (stands 0x01 → checked (.cceNop n) 0x0B) ∧ (stands 0x05 → checked (.retc n b) 0x0B) ∧ (stands 0x06 → checked (.ldcx n) 0x0B) ∧
      (e.addr ≠ x.cce → (stands 0x03 → checked (.jump n) 0x0B) ∧ (stands 0x04 → checked (.callc n b) 0x0B) ∧ (stands 0x07 → checked (.brcx n) 0x0B))) ∧
    (x.ctl < 63 → x.post.en = false → (e.flags = 0x01 → (stands 0x01 → counts (.cceNop n)) ∧ (stands 0x06 → counts (.ldcx n))) ∧
      (e.flags = 0x00 → (stands 0x05 → x.depth ≠ 0 → counts (.retc n false)) ∧
        (e.addr ≠ x.cce → (stands 0x03 → counts (.jump n)) ∧ (stands 0x04 → x.depth < 8 → counts (.callc n false)) ∧ (stands 0x07 → counts (.brcx n))))) ∧
    (stands 0x02 → clears (.waitf n)) ∧
    (stands 0x80 → x.bind.mc = some m → s.mcs[m].fenced = false → x.granted = true → s.glb.move = true → s.mcs[m].state = .idle → clears (.moveEntry n)) ∧
    (s.alive → x.gathering = some (o, e) → o.segs = [g] → g.count ≤ 16384 → (s.cores[x.bind.core].slots[(finOf 32 o.op : Fin 32)]).valid = true →
      g.addr + g.count ≤ 0xE0000000 → (0x60 ≤ o.op → clears (.execR n)) ∧ (o.op < 0x60 → (s.cores[x.bind.core].slots[(finOf 32 o.op : Fin 32)]).timed = false → clears (.execW n (.ok []))))

/-- The end of a chain completes its command; calls save and returns restore. -/
def Obligations.ChainEndsAndCalls : Prop := Claims.ChainEndCompletesTheCommand ∧ Claims.CallsSaveAndReturnsRestore

/-- Device operations become ready; post configuration writes. -/
def Obligations.DeviceOperationsAndPosts : Prop := Claims.DeviceOperationsBecomeReady ∧ Claims.PostConfigurationWrites

/-- Routines and Scout runs start with their entry state. -/
def Obligations.RoutinesAndScoutRunsStart : Prop := Claims.RoutinesStartWithTheirEntryState ∧ Claims.ScoutRunsStart

/-- Move programs start, and lanes serve ready channels. -/
def Obligations.MoveProgramsStartAndAreServed : Prop := Claims.MoveProgramsStart ∧ Claims.LanesServeReadyChannels

/-- Descriptors are read and checked; moves copy bytes; loops repeat. -/
def Obligations.DescriptorsMovesAndLoops : Prop := Claims.DescriptorsAreRead ∧ Claims.MoveChecksEndTheProgram ∧ Claims.MovesAreMade ∧ Claims.MovesCopyBytes ∧ Claims.LoopDescriptors

/-- Waits for ticks, drains and signals. -/
def Obligations.MoveWaits : Prop := Claims.WaitsForTicksAndDrains ∧ Claims.WaitsForSignals

/-- Signals write their record; programs end and stop. -/
def Obligations.SignalsAndProgramEnds : Prop := Claims.SignalsWriteTheirRecord ∧ Claims.ProgramsEndAndStop

/-- Register writes by width and agent; reads that clear; the MSI-X table and the configuration space. -/
def Obligations.RegisterWritesAndClearingReads : Prop := Claims.RegisterWritesByWidth ∧ Claims.ReadsThatClear ∧ Claims.TableAndConfiguration

/-- Time and counters read in halves; event records popped. -/
def Obligations.ReadsInHalvesAndPops : Prop := Claims.TimeIsReadInHalves ∧ Claims.CountersAndRecordsAreRead

/-- Tick edges open frames; DISPATCH grants; inputs are published; staged values are taken. -/
def Obligations.FramePoints : Prop := Claims.TickEdgesOpenFrames ∧ Claims.DispatchGrantsWork ∧ Claims.InputReadyPublishes ∧ Claims.StagedValuesAreTaken

/-- TICK_PERIOD takes the periods of R37 and no other. -/
def Obligations.PeriodsAreCheckedAndTakeEffect : Prop := Claims.PeriodsWaitEightEdges

/-- A follower measures its link, acquires and holds. -/
def Obligations.FollowersOnTheTickLink : Prop := Claims.FollowersMeasureTheirLink ∧ Claims.FollowersAcquireAndHold

/-- Event records are posted; a reader presents its queue; the marked queue. -/
def Obligations.EventRecordsAndTheReader : Prop := Claims.EventRecordsArePosted ∧ Claims.ReaderAndMarkedQueue

/-- R398: a REWIND while the mark is not valid fails: RW_FAIL is set, and nothing else differs, neither the read pointer nor any record. -/
def Obligations.RewindWithoutAMarkFails : Prop :=
  ∀ (s : State) (a : Agent) (p : PortIx), s.alive → s.combReady (combOf p) = true → s.ports[p].ev.mark = none →
    exec (.rewind a p 0x40000000) s = .next (s.modPort p fun x => { x with ev := { x.ev with rwFail := true } })

/-- Modes change over a frame; settings take effect at an edge. -/
def Obligations.ModesAndSettingsChange : Prop := Claims.ModesChangeOverAFrame ∧ Claims.SettingsTakeEffectAtAnEdge

/-- R15, R16, R74, R87, R104, R115: a value taken at the deadline reaches the pin at the tick edge, clamped to the code range of the port's mode, and is driven
unless heat or the field supply keeps the stage off; a held pin discards it; without a value the output stays. -/
def Obligations.CommittedValuesReachThePin : Prop :=
  ∀ (s : State) (p : PortIx) (w : Word), s.ports[p].a.runs = true → s.ports[p].modeWaits = false → s.ports[p].a.change = none → s.linked p = false →
    let x := s.ports[p]
    let t := s.commitPort p (some w)
    let drives (v : Int) (clamped : Bool) : Prop := t.ports[p].o.act = v ∧ t.ports[p].o.on = true ∧ t.ports[p].o.driving = !x.shut ∧ t.ports[p].o.s = v ∧ t.ports[p].o.taken = none ∧
      t.ports[p].st.clamp = (x.st.clamp || clamped) ∧ t.ports[p].r = x.r ∧ (∀ q, q ≠ p → t.ports[q] = s.ports[q]) ∧ t = { s with ports := t.ports }
    (x.md = mAoV → x.o.held = .free →
      drives (clampI (-524288) 524287 w.toInt) (decide (clampI (-524288) 524287 w.toInt ≠ w.toInt))) ∧
    (x.md = mAoI → x.o.held = .free → fld x.a.limits 4 0 = 0 → drives (clampI 0 512000 w.toInt) (decide (clampI 0 512000 w.toInt ≠ w.toInt))) ∧
    (x.md = mDo → x.o.held = .free → drives (if w.getLsbD 0 then 1 else 0) false) ∧
    (x.md = mAoV ∨ x.md = mAoI ∨ x.md = mDo → x.o.held ≠ .free → t = s.modPort p fun x => { x with o := { x.o with taken := none, cand := none } }) ∧
    (x.md = mAoV ∨ x.md = mAoI ∨ x.md = mDo →
      s.commitPort p none = s.modPort p fun x => { x with o := { x.o with taken := none, cand := none } })

/-- R73, R75, R87, R96 to R98 (ADC_CONVERSION, THERM_SHUTDOWN, THERM_COOLED, THERM_RESUME, CB_CAL_REQ, IN_SERVICE_CAL_START, IN_SERVICE_CAL_DONE): a conversion
is corrected and saturated, the first of a frame being that of the tick sample; an overheated stage stops until a tick edge after it has cooled; the lowest requested
port is calibrated over 256 frames, and coefficients that move by more than 64 are not taken. -/
def Obligations.ConversionsHeatAndCalibration : Prop :=
  ∀ (s : State) (a : Agent) (p : PortIx) (raw : Int) (c : CombIx) (l : Fin 8) (v : Word) (m : CalSet) (i : Fin 18) (n : Nat), s.alive →
    let x := s.ports[p]
    let y : Port := s.ports[(finOf 128 (8 * c.val + l.val) : PortIx)]
    let q : PortIx := finOf 128 (8 * c.val + l.val)
    let code := adcCode x.calSet (if x.i.conv = [] then x.i.tickRaw.getD raw else raw)
    let converts : Prop := s.glb.tick = true ∧ s.combReady (combOf p) = true ∧ x.a.change = none ∧ s.isMeasuring p = false ∧ x.md = mAiV ∧
      125 * x.i.conv.length + 124 < s.tick.len
    let old := y.calSet
    let moves (n : CalSet) : Bool := [calStep old.adcOfs n.adcOfs, calStep old.adcGain n.adcGain, calStep old.dacOfs n.dacOfs, calStep old.dacGain n.dacGain].any (64 < ·)
    (converts → -524288 ≤ code → code ≤ 524287 → Gives (.adcConversion p raw) s fun t =>
      t.ports[p] = { x with i := { x.i with conv := (code, false) :: x.i.conv, last := code, sample := if x.i.conv = [] then code else x.i.sample } } ∧
      (∀ q, q ≠ p → t.ports[q] = s.ports[q]) ∧ t = { s with ports := t.ports, rules := t.rules }) ∧
    (converts → 524287 < code → Gives (.adcConversion p raw) s fun t =>
      t.ports[p].i.last = 524287 ∧ t.ports[p].st.ovrange = true ∧ t.ports[p].i.conv = (524287, true) :: x.i.conv ∧ (∀ q, q ≠ p → t.ports[q] = s.ports[q])) ∧
    (x.o.therm = false → x.outMode = true → s.combReady (combOf p) = true → (s.isDriving p = true → s.pairs[pairOf p].mode ≠ .bypass) → Gives (.thermShutdown p) s fun t =>
      t.ports[p].o.therm = true ∧ t.ports[p].o.driving = false ∧ (⟨⟨0x01, p.val⟩, 0x05, 0, 0, s.now, none⟩ : Report) ∈ t.prop.reports ∧
      (∀ q, q ≠ p → t.ports[q] = s.ports[q]) ∧ t = { s with ports := t.ports, prop := t.prop }) ∧
    (x.o.therm = true → exec (.thermCooled p) s = .next (s.modPort p fun x => { x with o := { x.o with therm := false, thermWait := some s.tick.frames } })) ∧
    (x.o.thermWait = some n → n < s.tick.frames → x.o.on = true → x.o.driving = false → x.o.therm = false → x.o.fs = false →
      exec (.thermResume p) s = .next (s.modPort p fun x =>
        { x with o := { x.o with thermWait := none, level := 0, levelAt := s.now, driving := true, upset := x.o.upset || (x.isAo && x.o.act != 0) } })) ∧
    (x.o.thermWait = some n → s.tick.frames ≤ n → exec (.thermResume p) s = .next s) ∧
    (s.combReady c = true → Gives (.cbCalReq a c v) s fun t =>
      (∀ k : Fin 8, t.combs[c].calReq.getLsbD k.val = (s.combs[c].calReq.getLsbD k.val ||
        (v.getLsbD k.val && s.ports[(finOf 128 (8 * c.val + k.val) : PortIx)].modeNow != mIdle))) ∧
      t = s.modComb c fun x => { x with calReq := t.combs[c].calReq }) ∧
    (s.combReady c = true → s.combFenced c = false → s.combs[c].calPort = none → s.combs[c].calReq.getLsbD l.val = true →
      (∀ k : Fin 8, k < l → s.combs[c].calReq.getLsbD k.val = false) → y.modeNow ≠ mIdle → y.o.held = .free → y.a.change = none → exec (.inServiceCalStart c) s =
        .next ((s.modComb c fun x => { x with calPort := some l, calFrom := s.tick.frames + 2 }).modPort q fun x => { x with st := { x.st with calBusy := true } })) ∧
    (s.combs[c].calPort = some l → s.tick.frames < s.combs[c].calFrom + 256 → exec (.inServiceCalDone c m true true) s = .next s) ∧
    (s.combs[c].calPort = some l → s.combFenced c = false → y.o.held = .free → y.isAo = true → calIx y = some i → s.combs[c].calFrom + 256 ≤ s.tick.frames →
      s.tick.phase = .edge →
      (moves m = false → Gives (.inServiceCalDone c m true true) s fun t =>
        t.ports[q] = { y with st := { y.st with calBusy := false, cal := y.st.cal.set i m }, o := { y.o with dac := t.ports[q].o.dac } } ∧
        t.ports[q].o.dac = dacIn t.ports[q] y.o.act ∧ t.combs[c].calPort = none ∧
        t.combs[c].calReq.getLsbD l.val = false ∧ (∀ r, r ≠ q → t.ports[r] = s.ports[r]) ∧ t = { s with ports := t.ports, combs := t.combs, gauge := t.gauge }) ∧
      (moves m = true → Gives (.inServiceCalDone c m true true) s fun t =>
        t.ports[q].st.cal = y.st.cal ∧ t.ports[q].st.calFail = true ∧ t.ports[q].st.calBusy = false ∧ t.combs[c].calPort = none ∧ t.gauge = s.gauge))

/-- R103, R104 (GROUP_START, FS_LOW, FS_LOW_CLEAR, FS_OVC, FS_OVC_RESTORE), R114, R117, R118 (DI_RAW_EDGE, DI_EDGE, DO_TERMINAL_EDGE, LINE_FAULT): a complete group
runs; a low or overloaded supply is reported and turns off the outputs that depend on it; STATE of a digital input follows a stable level. -/
def Obligations.GroupsSuppliesAndLevels : Prop :=
  ∀ (s : State) (p : PortIx) (c : CombIx) (level : Bool) (tdc : BitVec 4) (ts : Nat), s.alive →
    let x := s.ports[p]
    let new := level != x.a.range.getLsbD 12
    let st := s.tdc tdc
    let untouched (t : State) : Prop := ∀ q, combOf q ≠ c ∨ (s.fsDependent q = false ∧ s.ports[q].o.fs = false) → t.ports[q] = s.ports[q]
    let off (t : State) : Prop := ∀ q, combOf q = c → s.fsDependent q = true → s.ports[q].o.fs = false → t.ports[q].o.fs = true ∧ t.ports[q].o.driving = false
    (s.combReady (combOf p) = true → x.a.runs = false → s.leadComplete p = true → x.md ≠ mReader → Gives (.groupStart p) s fun t =>
      t.ports[p].a.runs = true ∧ (∀ q, q ∈ s.windings p → t.ports[q].a.runs = true ∧ t.ports[q].st.halt = false) ∧
      (∀ q, q ≠ p → q ∉ s.windings p → t.ports[q] = s.ports[q]) ∧ t = { s with ports := t.ports, rules := t.rules }) ∧
    (s.combReady c = true → s.combs[c].low = false → Gives (.fsLow c) s fun t =>
      t.combs[c] = { s.combs[c] with low := true, fsResume := false } ∧ (⟨⟨0x04, c.val⟩, 0x8C, 0, 0, s.now, none⟩ : Report) ∈ t.prop.reports ∧
      untouched t ∧ off t ∧ (∀ d, d ≠ c → t.combs[d] = s.combs[d]) ∧
      t = { s with ports := t.ports, combs := t.combs, prop := t.prop }) ∧
    (s.combs[c].low = true → exec (.fsLowClear c) s = .next (s.modComb c fun x => { x with low := false, fsResume := true })) ∧
    (s.combReady c = true → Gives (.fsOvc c) s fun t =>
      t.combs[c] = { s.combs[c] with fsOff := true, ovc := true } ∧ (⟨⟨0x04, c.val⟩, 0x8D, 0, 0, s.now, none⟩ : Report) ∈ t.prop.reports ∧
      untouched t ∧ off t ∧ t = { s with ports := t.ports, combs := t.combs, prop := t.prop }) ∧
    (Gives (.fsOvcRestore c) s fun t => t.combs = s.combs.set c { s.combs[c] with fsOff := false } ∧ untouched t ∧
      (s.combs[c].low = false → s.combs[c].fsResume = false → ∀ q, combOf q = c → s.fsDependent q = true → s.ports[q].o.fs = true → s.ports[q].o.on = true →
        s.ports[q].o.driving = false → s.ports[q].o.therm = false → s.ports[q].o.thermWait = none → t.ports[q].o.driving = true ∧ t.ports[q].o.level = 0) ∧
      t = { s with ports := t.ports, combs := t.combs }) ∧
    (x.a.change = none → x.md = mDi → x.c.line ≠ level → s.isMeasuring p = false →
      (x.opt 31 16 ≠ 0 → new ≠ x.c.state → Gives (.diRawEdge p level tdc) s fun t =>
        t.ports[p] = { x with c := { x.c with line := level, debTs := some st.now } } ∧ (∀ q, q ≠ p → t.ports[q] = s.ports[q]) ∧
        t = { s with tick := st.tick, ports := t.ports, rules := t.rules }) ∧
      (x.opt 31 16 ≠ 0 → new = x.c.state → Gives (.diRawEdge p level tdc) s fun t =>
        t.ports[p] = { x with c := { x.c with line := level, debTs := none } } ∧ (∀ q, q ≠ p → t.ports[q] = s.ports[q]) ∧
        t = { s with tick := st.tick, ports := t.ports, rules := t.rules }) ∧
      (x.opt 31 16 = 0 → new ≠ x.c.state → Gives (.diRawEdge p level tdc) s fun t =>
        t.ports[p].c = { x.c with line := level, state := new, debTs := none } ∧ t.combs = s.combs ∧ t.pairs = s.pairs)) ∧
    (x.md = mDi → x.c.debTs = some ts → (x.c.line != x.a.range.getLsbD 12) ≠ x.c.state → Gives (.diEdge p) s fun t =>
      t.ports[p].c = { x.c with state := !x.c.state, debTs := none } ∧
      (x.opt 15 14 = 3 → x.ev.unread.length + x.ev.ret.length < 64 →
        t.ports[p].ev.unread = x.ev.unread ++ [⟨ts - 6000, if x.c.state then 0 else 1, 0x10, (x.ev.seq + 1) % 256⟩]) ∧
      (x.opt 15 14 = 0 → t.ports[p].ev = x.ev) ∧ t = { s with ports := t.ports, prop := t.prop }) ∧
    (x.md = mDo → Gives (.doTerminalEdge p level) s fun t =>
      t.ports[p] = { x with c := { x.c with line := level } } ∧ (∀ q, q ≠ p → t.ports[q] = s.ports[q]) ∧ t = { s with ports := t.ports, rules := t.rules }) ∧
    (x.md = mDiff → x.c.flt = false → Gives (.lineFault p) s fun t =>
      t.ports[p].st.f1 = true ∧ t.ports[p].c = { x.c with flt := true } ∧ (⟨⟨0x01, p.val⟩, 0x14, 0, 0, s.now, none⟩ : Report) ∈ t.prop.reports ∧
      (∀ q, q ≠ p → t.ports[q] = s.ports[q]) ∧ t = { s with ports := t.ports, prop := t.prop })

/-- R119, R122, R126, R128, R130 to R135 (LINE_EDGE, STEP_PULSE, PWM_PERIOD_START, RESOLVER_LOCK, RES_LOSS, RES_LOSS_END, EXCITATION_OPEN, SSI_TRANSFER_END):
edges move the 48-bit count as Table 4-9 says, two at once set QERR and leave it, a pulse moves it by one, and the results of the resolver and of a transfer are kept. -/
def Obligations.CountersStepsAndPositions : Prop :=
  ∀ (s : State) (p q : PortIx) (level : Bool) (tdc : BitVec 4) (amp : Word) (bits : BitVec 48) (t0 : Nat) (more : List PortIx), s.alive →
    let x := s.ports[p]
    let st := s.tdc tdc
    let rev : Int := if x.a.range.getLsbD 16 then -1 else 1
    let counts (n : Nat) : Prop := x.md = mDiff ∧ x.opt 31 28 = n ∧ x.a.runs = true ∧ x.c.line ≠ level ∧ x.opt 27 26 ≠ 2 ∧ s.isMeasuring p = false
    let exc : Prop := x.md = mRes ∧ x.opt 31 30 = 0 ∧ x.a.runs = true
    let d : Int := if x.c.m < 0 then -1 else 1
    (counts 6 → edgeSel (x.opt 25 24) level = true → Gives (.lineEdge p level false tdc) s fun t =>
      t.ports[p].c.cnt = wrapI 48 (x.c.cnt + rev) ∧ t.ports[p].c.line = level ∧ t.ports[p].c.edgeTs = st.now ∧ t.pairs = s.pairs ∧ t.combs = s.combs) ∧
    (counts 6 → edgeSel (x.opt 25 24) level = false → Gives (.lineEdge p level false tdc) s fun t => t.ports[p].c = { x.c with line := level, flt := false }) ∧
    (counts 3 → q ≠ p → s.groupFrom p = some [(q, .cntMember)] → Gives (.lineEdge p level false tdc) s fun t =>
      t.ports[p].c.cnt = wrapI 48 (x.c.cnt + rev * (if level ≠ s.ports[q].c.line then 1 else -1)) ∧ t.ports[p].c.line = level ∧
      t.ports[p].c.edgeTs = st.now ∧ t.ports[q].c = s.ports[q].c ∧ t.pairs = s.pairs ∧ t.combs = s.combs) ∧
    (counts 3 → q ≠ p → s.groupFrom p = some [(q, .cntMember)] → s.ports[q].opt 27 26 ≠ 2 → s.isMeasuring q = false →
      Gives (.lineEdge p level true tdc) s fun t =>
        t.ports[p].c = { x.c with line := level, flt := false, qerr := true } ∧ t.ports[p].st.f2 = true ∧ t.ports[q].c.line = !s.ports[q].c.line ∧
        t.ports[q].c.cnt = s.ports[q].c.cnt ∧ t.pairs = s.pairs ∧ t.combs = s.combs) ∧
    (x.md = mPulse → x.opt 31 30 = 0 → x.a.runs = true → x.c.left ≠ 0 → x.shut = false → s.pinOwn p = true → Gives (.stepPulse p) s fun t =>
      t.ports[p].c.cnt = wrapI 48 (x.c.cnt + d) ∧ t.ports[p].c.left = x.c.left - 1 ∧ t.ports[p].c.emitted = x.c.emitted + d ∧
      t.out = .pulse p.val (decide (0 < d)) :: s.out ∧ (∀ q, q ≠ p → t.ports[q] = s.ports[q]) ∧
      t = { s with ports := t.ports, out := t.out, prop := t.prop, rules := t.rules }) ∧
    (x.md = mPulse → x.opt 31 30 = 2 → x.a.runs = true → x.o.held = .free → x.c.stopped = false → x.shut = false → exec (.pwmPeriodStart p) s = .next (s.modPort p fun x =>
      { x with c := { x.c with pwmRun := x.c.pwm }, st := { x.st with f0 := decide (0 < x.c.pwm) } })) ∧
    (exc → x.c.loss = false → exec (.resolverLock p) s = .next (s.modPort p fun x => { x with st := { x.st with f0 := true }, c := { x.c with state := false } })) ∧
    (exc → x.c.loss = false → Gives (.resLoss p amp) s fun t =>
      t.ports[p].c = { x.c with loss := true, vel := 0 } ∧ t.ports[p].st.f1 = true ∧ t.ports[p].st.f0 = false ∧
      (⟨⟨0x02, p.val⟩, 0x20, 0, amp, s.now, none⟩ : Report) ∈ t.prop.reports ∧ t = { s with ports := t.ports, prop := t.prop }) ∧
    (exc → x.c.loss = true → exec (.resLossEnd p) s = .next (s.modPort p fun x => { x with c := { x.c with loss := false }, st := { x.st with f1 := false } })) ∧
    (exc → x.a.limits.getLsbD 5 = true → Gives (.excitationOpen p) s fun t =>
      t.ports[p].st.opn = true ∧ (⟨⟨0x01, p.val⟩, 0x01, 0, 0, s.now, none⟩ : Report) ∈ t.prop.reports ∧ t = { s with ports := t.ports, prop := t.prop }) ∧
    (x.c.ssi = some t0 → s.windings p = q :: more → q ≠ p → x.o.held = .free → x.c.ssiFail = false → s.ports[q].c.flt = false → x.a.range.getLsbD 12 = false →
      (Gives (.ssiTransferEnd p bits true true true) s fun t =>
        t.ports[q].c.ssiRes = some (bits.toNat % 2 ^ x.opt 30 24, t0) ∧ t.ports[q].st.f1 = false ∧ t.ports[p].c.ssi = none ∧
        (∀ r, r ≠ p → r ≠ q → t.ports[r] = s.ports[r]) ∧ t = { s with ports := t.ports }) ∧
      (Gives (.ssiTransferEnd p bits true false true) s fun t =>
        t.ports[q].c = s.ports[q].c ∧ t.ports[q].st.f1 = true ∧ t.ports[p].c.ssi = none ∧ (⟨⟨0x01, q.val⟩, 0x24, 0, 2, s.now, none⟩ : Report) ∈ t.prop.reports))

/-- R137 to R139, R394 (PC_TXQ_PUSH, TX_CHARACTER_START, TX_CHARACTER_END, TXQ_FLUSH, LOOP_OPEN, START_BIT, RX_CHAR, BREAK_END): characters are sent in the order pushed,
the 257th is dropped, each in the form of its settings, and what is received is posted with the time of its start bit; space throughout is a break. -/
def Obligations.CharactersAreSentAndReceived : Prop :=
  ∀ (s : State) (a : Agent) (p : PortIx) (v : Word) (cts : Bool) (tdc : BitVec 4) (data : Byte) (parity stop1 stop2 : Bool) (c : BitVec 9) (rest : List (BitVec 9)) (t0 : Nat), s.alive →
    s.combReady (combOf p) = true →
    let x := s.ports[p]
    let only (t : State) : Prop := (∀ q, q ≠ p → t.ports[q] = s.ports[q]) ∧ t = { s with tick := t.tick, ports := t.ports, prop := t.prop, out := t.out, rules := t.rules }
    let got := x.charRead data parity stop1 stop2
    let stop := got.2.2
    (x.opt 26 25 = 3 → x.opt 29 27 = 0 → x.opt 24 23 = 0 → got = (data.toNat, false, [stop1]) ∧
      (c.getLsbD 8 = false → x.charForm c = (false, 2) :: ((List.range 8).map fun i => (c.getLsbD i, 2)) ++ [(true, 2)]) ∧
      (c.getLsbD 8 = true → x.charForm c = [(false, 40), (true, 2)])) ∧
    (x.transmits = true →
      (x.tx.q.length < 256 → exec (.pcTxqPush a p v) s =
        .next (s.modPort p fun x => { x with r := { x.r with txPush := v &&& 0x1FF }, tx := { x.tx with q := x.tx.q ++ [v.truncate 9] } })) ∧
      (256 ≤ x.tx.q.length → exec (.pcTxqPush a p v) s =
        .next (s.modPort p fun x => { x with r := { x.r with txPush := v &&& 0x1FF }, tx := { x.tx with drop := true } })) ∧
      (x.a.runs = true → x.tx.cur = none → x.o.held = .free → x.handshake = false → x.tx.q = c :: rest → s.linked p = false →
        Gives (.txCharacterStart p cts) s fun t =>
          t.ports[p] = { x with tx := { x.tx with q := rest, cur := some c }, st := { x.st with f0 := true }, o := { x.o with on := true, driving := !x.shut } } ∧
          t.out = .txChar p.val (fld x.a.range 20 0) (x.charForm c) :: s.out ∧ only t) ∧
      (x.a.runs = true → x.tx.cur = none → x.o.held = .free → x.handshake = true → Gives (.txCharacterStart p false) s fun t => t.ports[p].tx = x.tx ∧ t.out = s.out ∧ only t)) ∧
    (x.tx.cur = some c → x.tx.q = [] → x.ev.unread.length + x.ev.ret.length < 64 → Gives (.txCharacterEnd p) s fun t =>
      t.ports[p].tx = { x.tx with cur := none } ∧ t.ports[p].ev.unread = x.ev.unread ++ [⟨s.now, 0, 0x2A, (x.ev.seq + 1) % 256⟩] ∧ only t) ∧
    (exec (.txqFlush a p 0x80010000) s = .next (s.modPort p fun x => { x with tx := { x.tx with q := [], drop := false } })) ∧
    (x.md = mLoop → x.transmits = true → x.a.range.getLsbD 30 = true → x.a.limits.getLsbD 5 = true → x.a.runs = true → Gives (.loopOpen p) s fun t =>
      t.ports[p].st.opn = true ∧ (⟨⟨0x01, p.val⟩, 0x01, 0, 0, s.now, none⟩ : Report) ∈ t.prop.reports ∧ only t) ∧
    (x.receives = true → s.isMeasuring p = false →
      (x.a.runs = true → x.tx.rx = none → x.st.f1 = false → Gives (.startBit p tdc) s fun t =>
        t.ports[p] = { x with tx := { x.tx with rx := some (s.tdc tdc).now }, c := { x.c with line := false } } ∧ only t) ∧
      (x.tx.rx = some t0 → stop.any id = true → x.ev.unread.length + x.ev.ret.length < 64 → Gives (.rxChar p data parity stop1 stop2) s fun t =>
        t.ports[p].tx = { x.tx with rx := none } ∧ t.ports[p].st.f1 = false ∧ only t ∧
        t.ports[p].ev.unread = x.ev.unread ++ [⟨t0, toW (got.1 + (if got.2.1 then 256 else 0) +
          (if stop.all id then 0 else 512)), 0x28, (x.ev.seq + 1) % 256⟩]) ∧
      (x.tx.rx = some t0 → x.ev.unread.length + x.ev.ret.length < 64 → Gives (.rxChar p 0 false false false) s fun t =>
        t.ports[p].st.f1 = true ∧ t.ports[p].ev.unread = x.ev.unread ++ [⟨t0, 0, 0x29, (x.ev.seq + 1) % 256⟩] ∧ only t) ∧
      (x.st.f1 = true → Gives (.breakEnd p) s fun t =>
        t.ports[p] = { x with st := { x.st with f1 := false }, c := { x.c with line := true } } ∧ only t))

/-- Graft requests are judged; contacts move a pair; blends end; the relay rail fails. -/
def Obligations.GraftPairs : Prop := Claims.GraftRequestsAreJudged ∧ Claims.ContactsMoveThePair ∧ Claims.BlendsEndAndTheRailFails

/-- Doorbells move the rings; entries are fetched and checked. -/
def Obligations.RingsAndFetches : Prop := Claims.DoorbellsMoveTheRings ∧ Claims.EntriesAreFetched

/-- R338, R339, R345, R346, R546 (COMPLETION_RECORD, QSTALL, QFAULT): the record of entry d is written into its place of the ring, then the done-head word, then the
vector is requested; a record the link refuses is lost and reported, and the word still goes; a ring that stays full with a backlog stalls and then faults. -/
def Obligations.CompletionsAreWritten : Prop :=
  ∀ (s : State) (q : QpIx) (r : Done), s.alive → s.hq.d3 = false →
    let x := s.qps[q]
    let d := (x.d + 1) % 2 ^ 32
    let record := leBytes 8 r.ts ++ leBytes 2 r.cid ++ leBytes 1 r.status ++ leBytes 1 r.detail ++ leBytes 4 r.result
    let writes : List Emit := .hostWrite x.head (leBytes 4 d) :: .hostWrite (x.cq + x.d % 2 ^ x.dlog * 16) record :: s.out
    let kept (t : State) : Prop := t.qps[q].d = d ∧ t.qps[q].done = x.done.filter (·.k != r.k) ∧ t.qps[q].f = x.f ∧ t.qps[q].t = x.t ∧
      t.qps[q].c = x.c ∧ t.qps[q].waiting = x.waiting ∧ (∀ j, j ≠ q → t.qps[j] = s.qps[j])
    let full : Prop := x.valid = true ∧ x.full = true ∧ x.done ≠ []
    (x.nextDone = some r → s.hq.issues = true → s.hq.link = true → r.noirq = true → Gives (.completionRecord q ⟨false, false⟩) s fun t =>
      kept t ∧ t.out = writes ∧ t = { s with qps := t.qps, out := t.out }) ∧
    (∀ v : VecIx, x.nextDone = some r → s.hq.issues = true → s.hq.link = true → r.noirq = false → Qp.vector q x = some v → s.hq.vecs[v].thr ≤ 1 →
      s.hq.vecs[v].mask = false → s.hq.fmask = false → Gives (.completionRecord q ⟨false, false⟩) s fun t => kept t ∧ t.out = .msix v.val s.hq.vecs[v].msg :: writes) ∧
    (∀ v : VecIx, x.nextDone = some r → s.hq.issues = true → s.hq.link = true → r.noirq = false → Qp.vector q x = some v → s.hq.vecs[v].count + 1 < s.hq.vecs[v].thr →
      Gives (.completionRecord q ⟨false, false⟩) s fun t => kept t ∧ t.out = writes ∧ t.hq.vecs[v].count = s.hq.vecs[v].count + 1) ∧
    (x.nextDone = some r → s.hq.issues = true → s.hq.link = true → r.noirq = true → Gives (.completionRecord q ⟨true, false⟩) s fun t =>
      kept t ∧ t.out = .hostWrite x.head (leBytes 4 d) :: s.out ∧ (⟨⟨0x0B, q.val⟩, 0x7B, 0, 0, s.now, none⟩ : Report) ∈ t.prop.reports) ∧
    (x.full = true → exec (.completionRecord q ⟨false, false⟩) s = .next s) ∧
    (full → x.stall = false → exec (.qstall q) s = .next ((s.modQp q fun x => { x with stall := true }).report 0x0B q.val 0x79 0 0)) ∧
    (full → x.stall = true → x.faulted = false →
      exec (.qfault q) s = .next ((s.modQp q fun x => { x with fault := true, faulted := true }).report 0x0B q.val 0x7A 0 0))

/-- Vectors, power states, the window, and function-level reset. -/
def Obligations.VectorsPowerStatesAndResets : Prop := Claims.VectorsPowerStatesAndWindow ∧ Claims.FunctionResetsEndTheHostsWork

/-- Admin commands complete with their effect; routines are loaded. -/
def Obligations.AdminCommandsAndRoutines : Prop := Claims.AdminCommandsComplete ∧ Claims.RoutinesAreLoaded

/-- R351, R358, R360, R482, R495 to R497 (GET_LOG, IMAGE_STAGE, IMAGE_COMMIT, IMAGE_COMMAND_ENDED): a part of a log goes to its address; a staged block erases its sector when it is
the first of it and is programmed; a commit of an image that does not verify changes no record and no key; the command completes when its flash work ends, a commit
with the end of its session and its key enrolled. -/
def Obligations.LogsAndImagesByTheAdminQueue : Prop :=
  ∀ (s : State) (c e : Cmd) (rest : List Cmd) (b : List Byte) (st d r : Nat), s.alive → s.canonical →
    let base := s.modQp 0 fun x => { x with waiting := rest }
    let front (opc : Nat) : Prop := s.hq.running = none ∧ s.qps[(0 : QpIx)].waiting = c :: rest ∧ c.opc = opc ∧ c.q = 0
    let quiet : Prop := s.hq.image = none ∧ s.psu.bind = .none
    let ofs := c.at_ 16 4
    let slotB := s.cast.stageSlot
    let part := ((s.logOf (c.at_ 16 1)).drop (c.at_ 20 4)).take (c.at_ 24 4)
    let cause := verifyCause s.cast.keys (Memory.read (s.cast.slot slotB) 0 (min ofs slotSize)) ofs true ((stageList 0 ofs).all fun x => s.cast.staged.contains x)
    (front 0x87 → c.at_ 16 1 ≠ 2 → part ≠ [] → c.addr < 2 ^ 63 → Gives (.getLog none) s fun t =>
      t.lmem = Memory.write s.lmem c.addr part ∧ t.ended c 0 0 part.length ∧ t = { s with qps := t.qps, lmem := t.lmem, cores := t.cores }) ∧
    (front 0x87 → c.at_ 16 1 = 2 → s.glb.gauge = false → exec (.getLog none) s = .next (base.complete c 0x30 0x04 4)) ∧
    (front 0x8A → quiet → s.cast.owner = .host → s.cast.flags.getLsbD 0 = true → c.addr < 2 ^ 63 → c.at_ 20 4 = 4096 → ofs % 4096 = 0 → ofs + 4096 ≤ slotSize →
      ofs / 4096 ∉ s.cast.staged → b = Memory.read s.lmem c.addr 4096 → Gives (.imageStage (.ok [])) s fun t =>
        t.hq = { s.hq with image := some (c, 0, 0, 0) } ∧ t.cast.before = some (s.cast.nor none) ∧ t.cast.staged = s.cast.staged ++ [ofs / 4096] ∧ Memory.read (t.cast.slot slotB) ofs 4096 = b ∧
        t.cast.slot (!slotB) = s.cast.slot (!slotB) ∧ t.cast.recA = s.cast.recA ∧ t.cast.recB = s.cast.recB ∧ t.cast.keys = s.cast.keys ∧
        (∀ i, i < ofs / 65536 * 65536 ∨ ofs / 65536 * 65536 + 65536 ≤ i → Memory.get (t.cast.slot slotB) i = Memory.get (s.cast.slot slotB) i) ∧
        t = { s with qps := t.qps, hq := t.hq, cast := t.cast, gauge := t.gauge }) ∧
    (front 0x8A → quiet → s.cast.owner = .usb → exec (.imageStage (.ok [])) s = .next (base.complete c 0x30 0x05 0)) ∧
    (front 0x8B → quiet → s.cast.owner = .host → s.cast.flags.getLsbD 0 = false → exec .imageCommit s = .next (base.complete c 0x30 0x09 0)) ∧
    (front 0x8B → quiet → s.cast.owner = .host → s.cast.flags.getLsbD 0 = true → cause ≠ 0 → Gives .imageCommit s fun t =>
      t.hq = { s.hq with image := some (c, 0x30, 0x08, cause) } ∧ t.cast.recA = s.cast.recA ∧ t.cast.recB = s.cast.recB ∧ t.cast.keys = s.cast.keys ∧
      t.cast.next = s.cast.next ∧ t = { s with qps := t.qps, hq := t.hq, cast := t.cast }) ∧
    (s.hq.image = some (e, st, d, r) → Gives .imageCommandEnded s fun t =>
      let key := s.cast.before.bind (·.key)
      t.ended e st d r ∧ t.hq = { s.hq with image := none } ∧ t.cast.before = none ∧ (e.opc = 0x8B → t.cast.owner = .none ∧ t.cast.staged = []) ∧
      (key = none → e.opc ≠ 0x8B → t.cast = { s.cast with before := none }) ∧
      (∀ (j : Fin 4) (k : List Byte), key = some k → s.cast.keys[j] = none → (∀ i, i < j → s.cast.keys[i] ≠ none) →
        t.cast.keys = s.cast.keys.set j (some (Config.sha256 k).toList) ∧ t.cast.keyFull = s.cast.keyFull) ∧
      t = { s with qps := t.qps, hq := t.hq, cast := { s.cast with before := t.cast.before, owner := t.cast.owner, staged := t.cast.staged, keys := t.cast.keys,
                                                                   keyFull := t.cast.keyFull } })

/-- R368, R369, R371, R373 to R377 (FIRE, RELEASE, FOLLOW_HOLD_END, REFLEX_COMPARATOR_CROSSING): an active rule whose condition has become true fires: it counts, opens its relays,
holds its pin unless a rule of lower number does, and posts its record; a locked rule takes a release alone; a FOLLOW hold ends with its condition. -/
def Obligations.RulesFireAndRelease : Prop :=
  ∀ (s : State) (a : Agent) (r : RuleIx) (p : PortIx) (v : Word) (q : Int), s.alive →
    let x := s.rules[r]
    let rec_ (code : Nat) : RxRec := ⟨s.now, r.val, code, if fld x.act 31 28 = 0 then 0xFF else fld x.act 22 16,
      if fld x.trig 31 28 = 4 then 0xFF else fld x.trig 22 16, (s.rx.seq + 1) % 256, s.rx.coil⟩
    let others (t : State) : Prop := ∀ j, j ≠ r → (t.rules[j] = s.rules[j] ∨ t.rules[j] = { s.rules[j] with spent := false })
    let fires : Prop := s.ruleActive x = true ∧ s.condTrue x = true ∧ x.spent = false
    let held (t : State) (h : Bool) : Prop := t.rules[r].holding = h ∧ t.rules[r].act = x.act ∧ t.rules[r].trig = x.trig ∧ others t
    (fires → Gives (.fire r) s fun t => t.rules[r].fires = satInc x.fires ∧ held t (x.holding || decide (x.hold < 2)) ∧
      t.rx.coil = s.rx.coil &&& ~~~(BitVec.ofNat 4 (fld x.act 3 0)) ∧ t.lmem = s.lmem ∧ t.qps = s.qps ∧ t.chans = s.chans ∧ t.pairs = s.pairs) ∧
    (fires → fld x.act 3 0 = 0 → x.evq = true → s.rx.evq.length < 256 → Gives (.fire r) s fun t => t.rx.evq = s.rx.evq ++ [rec_ 0x01]) ∧
    (fires → x.hold < 2 → fld x.act 31 28 = 3 → fld x.act 22 16 = p.val → s.takesActions p = true → s.bound = false → s.combFenced (combOf p) = false →
      s.ports[p].owner = none → (∀ j : RuleIx, j < r → ¬(s.rules[j].holding = true ∧ fld s.rules[j].act 31 28 ≠ 0 ∧ fld s.rules[j].act 22 16 = p.val)) →
      s.ports[p].o.held = .free → Gives (.fire r) s fun t => t.ports[p].o.held = .hiz ∧ t.ports[p].o.driving = false ∧
        (groleOf s.ports[p] ≠ .dirMember → ∀ i, i ≠ p → t.ports[i] = s.ports[i])) ∧
    (¬fires → Gives (.fire r) s fun t => t = { s with rules := t.rules }) ∧
    (x.lock = true → v.getLsbD 26 = false → Gives (.release a r v) s fun t => t = { s with rx := { s.rx with lockRej := true }, rules := t.rules } ∧
      (∀ j : RuleIx, t.rules[j].holding = s.rules[j].holding)) ∧
    (x.lock = true → v.getLsbD 26 = true → x.hold = 0 → x.holding = true → x.evq = true → s.rx.evq.length < 256 → Gives (.release a r v) s fun t =>
      held t false ∧ t.rules[r].en = x.en ∧ t.rx.evq = s.rx.evq ++ [rec_ 0x02]) ∧
    (x.lock = false → fld v 28 27 = 3 → Gives (.release a r v) s fun t => t = { s with rx := { s.rx with cfgRej := true }, rules := t.rules }) ∧
    (x.lock = false → fld v 28 27 ≠ 3 → v.getLsbD 31 = false → Gives (.release a r v) s fun t =>
      t.rules[r].en = false ∧ t.rules[r].hold = fld v 28 27 ∧ t.rules[r].evq = v.getLsbD 25 ∧ held t false) ∧
    (x.hold = 1 → x.holding = true → s.condTrue x = false → Gives (.followHoldEnd r) s fun t => held t false) ∧
    (s.condTrue x = true → Gives (.followHoldEnd r) s fun t => t = { s with rules := t.rules } ∧ held t x.holding) ∧
    (fld x.trig 31 28 = 2 → x.en = true → Gives (.reflexComparatorCrossing r q) s fun t => held t x.holding ∧ t = { s with rules := t.rules } ∧
      (sfld x.thresh 20 + 256 ≤ q → t.rules[r].above = true) ∧ (q < sfld x.thresh 20 - 256 → t.rules[r].above = false) ∧
      (sfld x.thresh 20 - 256 ≤ q → q < sfld x.thresh 20 + 256 → t.rules[r].above = x.above))

/-- R380 to R384, R386, R394 (ESTOP_INPUT, ESTOP_ON, REFLEX_ESTOP_RESET, DISC, CLOSE, OPEN, DE_AUX, REFLEX_PLANE, REFLEX_EVQ_FLUSH): E-stop opens its drive enables and
needs a reset with both channels closed; a drive enable closes only where nothing holds it open; every opening is recorded. -/
def Obligations.EstopAndDriveEnables : Prop :=
  ∀ (s : State) (a : Agent) (v : Word) (k : Fin 4) (b on : Bool), s.alive →
    let x := s.rx
    let req := BitVec.ofNat 4 (fld v 19 16)
    let mask := BitVec.ofNat 4 (fld v 15 12)
    let record (code : Nat) : RxRec := ⟨s.now, 0xFFFF, code, 0xFF, 0xFF, (x.seq + 1) % 256, x.coil⟩
    let only (t : State) : Prop := t = { s with rx := t.rx, rules := t.rules }
    (x.disc = false → Gives (.estopInput b on) s fun t => t.rx.raw = (if b then (x.raw.1, on) else (on, x.raw.2)) ∧ t.rx.estop = x.estop ∧ t.rx.coil = x.coil ∧
      t.rx.closed = (if on then (if b then (x.closed.1, true) else (true, x.closed.2)) else x.closed) ∧ only t) ∧
    (x.estop = false → x.raw.1 = false ∨ x.raw.2 = false → Gives .estopOn s fun t => t.rx.estop = true ∧ (x.armed = true → t.rx.coil &&& x.deMask = 0) ∧
      (x.raw.1 = false → t.rx.closed.1 = false) ∧ (x.raw.2 = false → t.rx.closed.2 = false)) ∧
    (x.raw = (true, true) → Gives .estopOn s fun t => t = { s with rules := t.rules }) ∧
    (v.getLsbD 31 = true → x.closed = (true, true) → x.raw = (true, true) → x.disc = false → x.estop = true → x.evq.length < 256 →
      Gives (.reflexEstopReset a v) s fun t => t.rx.estop = false ∧ t.rx.evq = x.evq ++ [record 0x04] ∧ t.rx.coil = x.coil ∧ only t) ∧
    (v.getLsbD 31 = true → ¬(x.closed = (true, true) ∧ x.raw = (true, true) ∧ x.disc = false) → Gives (.reflexEstopReset a v) s fun t =>
      t.rx = { x with rstRej := true } ∧ only t) ∧
    (x.raw.1 ≠ x.raw.2 → x.disc = false → Gives .disc s fun t => t.rx.disc = true ∧ t.rx.estop = true ∧
      (⟨⟨0x11, 0⟩, 0x94, 0, 0, s.now, none⟩ : Report) ∈ t.prop.reports) ∧
    (mask = 0 → x.estop = false → x.armed = true → s.prop.grave = false → s.bound = false → x.deFired.1 ≠ s.now ∨ req &&& x.deFired.2 = 0 → Gives (.close a v) s fun t =>
      (let ok := req &&& ~~~(s.heldOpen ||| x.deDis)
       t.rx.coil = x.coil ||| ok ∧ t.rx.aux = x.aux ||| ok ∧ t.rx.deDis = x.deDis &&& ~~~req ∧
         t.rx.closeRej = ((x.closeRej && !v.getLsbD 24) || decide (ok ≠ req))) ∧ t = { s with rx := t.rx }) ∧
    (mask = 0 → x.deFired.1 = s.now → req &&& x.deFired.2 ≠ 0 → Gives (.close a v) s fun t =>
      t.rx.coil &&& x.deFired.2 &&& req = x.coil &&& x.deFired.2 &&& req ∧ t.rx.closeRej = true ∧ t = { s with rx := t.rx }) ∧
    (mask = 0 → req ≠ 0 → x.estop = true ∨ x.armed = false ∨ s.prop.grave = true ∨ s.bound = true → Gives (.close a v) s fun t =>
      t.rx.coil = x.coil ∧ t.rx.closeRej = true ∧ t = { s with rx := t.rx }) ∧
    (req = 0 → x.coil &&& mask ≠ 0 → x.evq.length < 256 → Gives (.openDe a v) s fun t =>
      t.rx.coil = x.coil &&& ~~~mask ∧ t.rx.evq = x.evq ++ [{ record 0x06 with de := x.coil &&& ~~~mask }] ∧ t = { s with rx := t.rx }) ∧
    (x.deDis.getLsbD k.val = false → Gives (.deAux k) s fun t => t.rx.deDis = x.deDis ||| (1#4 <<< k.val) ∧ t.rx.coil = x.coil &&& ~~~(1#4 <<< k.val) ∧
      (⟨⟨0x12, k.val⟩, 0x95, 0, 0, s.now, none⟩ : Report) ∈ t.prop.reports ∧ t = { s with rx := t.rx, prop := t.prop } ∧
      (x.coil.getLsbD k.val = false → x.evq.length < 256 → t.rx.evq = x.evq ++ [record 0x07])) ∧
    (x.deDis.getLsbD k.val = true → exec (.deAux k) s = .next s) ∧
    (exec .reflexPlane s = .next (s.report 0x13 0 0xF1 0 0)) ∧
    (v.getLsbD 31 = true → exec (.reflexEvqFlush a v) s = .next { s with rx := { x with evq := [] } }) ∧
    (v.getLsbD 31 = false → exec (.reflexEvqFlush a v) s = .next s)

/-- Reports have their reaction; units recover; injection needs its token and strap. -/
def Obligations.FaultsReactAndRecover : Prop := Claims.ReportsHaveTheirReaction ∧ Claims.RecoveryAndInjection ∧ Claims.UnitsReportTheirFaults

/-- R439, R440, R442 (POWER_FAIL_WARNING, DRIVING_PORTS_HIZ, HOST_REQUESTS_END, COMB_SUPPLIES_OFF, OUTPUTS_OFF): the steps of Bind-off: the warning is
reported, all work ends with DOMAIN_DOWN, the drive enables open and domains 1 to 7 go off; nothing restarts it once begun. -/
def Obligations.BindOffRunsInSteps : Prop :=
  ∀ (s : State), s.alive →
    (s.psu.bind = .none → Gives .powerFailWarning s fun t => t.psu = { s.psu with pfw := true, bind := .begun, lastOff := 1 } ∧ t.rx.coil = 0 ∧
      (∀ n : Fin 32, 1 ≤ n.val → n.val ≤ 7 → t.fan.dom[n] = .off) ∧ (⟨⟨0x18, 0⟩, 0xB8, 0, 0, s.now, none⟩ : Report) ∈ t.prop.reports ∧
      (∀ i : ChIx, s.chans[i].state = .active → t.chans[i].state = .idle ∧ ∀ c, s.chans[i].cur = some c → t.ended c 0x22 0 0)) ∧
    (s.psu.bind ≠ .none → Gives .powerFailWarning s fun t => t = { s with psu := { s.psu with pfw := true }, rules := t.rules }) ∧
    (s.psu.bind ≠ .none → Gives .drivingPortsHiz s fun t =>
      (∀ j : PairIx, s.pairs[j].link = true → t.ports[s.drivPort j].o.held = .hiz ∧ t.ports[s.drivPort j].o.driving = false ∧ t.pairs[j].regen = false) ∧
      t = { s with ports := t.ports, pairs := t.pairs, rules := t.rules }) ∧
    (s.psu.bind = .begun → exec .hostRequestsEnd s = .next { s with psu := { s.psu with bind := .quiet }, hq := { s.hq with issues := false } }) ∧
    (s.psu.bind = .quiet → Gives .combSuppliesOff s fun t => t.psu.bind = .combsOff ∧ t.glb.comb = 0 ∧ t.rx.armed = false ∧
      (∀ p : PortIx, t.ports[p].o.held = .hiz ∧ t.ports[p].o.driving = false) ∧ (∀ n : Fin 32, 16 ≤ n.val → t.fan.dom[n] = .off) ∧
      (∀ n : Fin 32, n.val < 16 → t.fan.dom[n] = s.fan.dom[n])) ∧
    (s.psu.bind = .combsOff → exec .outputsOff s = .next { s with psu := { s.psu with bind := .off } })

/-- R502 to R504, R377 (RESTART, RESTART_CAST_ON, WARM): a keyed write that names exactly one of the two restarts the module or resets it warm; any other that names one is discarded. A
restart clears the functions' bits, all work and the queue pairs and opens every drive enable; the time base and Gauge go on. A warm reset keeps the image, the bits
and the locked rules. -/
def Obligations.RestartAndWarmReset : Prop :=
  ∀ (s : State) (a : Agent) (v : Word) (h : HookWrites), s.alive →
    let keyed : Prop := fld v 31 24 = 0xC3 ∧ v.getLsbD 1 ≠ v.getLsbD 0 ∧ s.cast.restarting = false ∧ s.psu.bind = .none
    let none_ : Prop := v.getLsbD 1 = false ∧ v.getLsbD 0 = false
    (none_ → Gives (.restart a v) s fun t => t = { s with cast := { s.cast with rstRej := s.cast.rstRej && !v.getLsbD 8 }, rules := t.rules }) ∧
    (¬none_ → ¬keyed → Gives (.restart a v) s (fun t => t = { s with cast := { s.cast with rstRej := true }, rules := t.rules }) ∧
      Gives (.warm a v h) s fun t => t = { s with cast := { s.cast with rstRej := true }, rules := t.rules }) ∧
    (keyed → v.getLsbD 1 = true → Gives (.restart a v) s fun t => t.cast.restarting = true ∧ t.cast.booting = false ∧ t.cast.run = none ∧ t.cast.owner = .none ∧
      t.glb.image = false ∧ t.glb.move = false ∧ t.glb.ncl = 0 ∧ t.glb.comb = 0 ∧ t.glb.tick = s.glb.tick ∧ t.glb.reflex = s.glb.reflex ∧ t.tick = s.tick ∧ t.gauge = s.gauge ∧
      t.rx.coil = 0 ∧ t.fan.req = 0 ∧ t.hq.admRdy = true ∧ t.qps = Vector.replicate 512 {} ∧
      (s.cast.before = none → t.cast.keys = s.cast.keys ∧ t.cast.slotA = s.cast.slotA ∧ t.cast.slotB = s.cast.slotB) ∧
      (s.prop.grave = false → t.chans = State.reset.chans ∧ t.prop.fences = []) ∧ t.prop.log = s.prop.log ∧ t.prop.grave = s.prop.grave ∧
      (∀ j : PairIx, t.pairs[j].link = s.pairs[j].link) ∧ (∀ k : CoreIx, t.cores[k].run = none ∧ t.cores[k].isram = s.cores[k].isram)) ∧
    (s.cast.restarting = true → s.psu.bind = .none → exec .restartCastOn s = .next { s with cast := { s.cast with booting := true, next := s.cast.newest } }) ∧
    (s.cast.restarting = false → exec .restartCastOn s = .next s) ∧
    (keyed → v.getLsbD 0 = true → Gives (.warm a v h) s fun t => t.cast.restarting = false ∧ t.cast.image = s.cast.image ∧ t.cast.run = s.cast.run ∧
      t.glb.image = s.glb.image ∧ t.glb.comb = s.glb.comb ∧ t.glb.ncl = s.glb.ncl ∧ t.glb.reflex = s.glb.reflex ∧ t.tick.now = s.tick.now ∧ t.tick.act = s.tick.act ∧
      t.tick.role = s.tick.role ∧ t.fan.req = 0 ∧ t.hq.admRdy = true ∧ t.qps = Vector.replicate 512 {} ∧ t.prop.log = s.prop.log ∧ t.prop.grave = s.prop.grave ∧
      (∀ r : RuleIx, s.rules[r].lock = true → t.rules[r].lock = true ∧ t.rules[r].act = s.rules[r].act ∧ t.rules[r].trig = s.rules[r].trig) ∧
      (∀ p : PortIx, s.ports[p].safeLock = true → t.ports[p].r.safe = s.ports[p].r.safe) ∧ (∀ j : PairIx, t.pairs[j].link = s.pairs[j].link))

/-- The mains unit, temperatures, the fan; domains drain and come up. -/
def Obligations.PowerTemperatureAndDomains : Prop := Claims.PowerAndTemperatureAreJudged ∧ Claims.DomainsDrainAndComeUp

/-- R451 (DOMAIN_POWER_DOWN, DOMAIN_POWER_UP): a write of FAN_DOM_REQ by any of its writers: setting bit n requests that domain n power down, clearing it requests power-up; one that
would set bit 0, bit 8, a bit from 9 to 15, or the bit of a Comb that may not rest is discarded whole and sets DOM_REJ. -/
def Obligations.DomainsAreRequested : Prop :=
  ∀ (s : State) (a : Agent) (w : Word) (n : Fin 32), s.alive →
    let bad : Prop := w &&& 0xFF01 ≠ 0 ∨ ∃ c : CombIx, w.getLsbD (16 + c.val) = true ∧ s.combMayRest c = false
    let asked (t : State) : Prop := t.fan.req = w ∧ t.fan.domRej = s.fan.domRej ∧
      (w.getLsbD n.val = true → s.fan.req.getLsbD n.val = false → s.fan.dom[n] = .on → t.fan.dom[n] = .draining) ∧
      (w.getLsbD n.val = false → s.fan.req.getLsbD n.val = true → s.fan.dom[n] = .off → t.fan.dom[n] = .rising) ∧
      (w.getLsbD n.val = s.fan.req.getLsbD n.val → t.fan.dom[n] = s.fan.dom[n])
    let rejected : State := { s with fan := { s.fan with domRej := true } }
    (bad → exec (.domainPowerDown a w) s = .next rejected ∧ exec (.domainPowerUp a w) s = .next rejected) ∧
    (¬bad → Gives (.domainPowerDown a w) s asked ∧ Gives (.domainPowerUp a w) s asked)

/-- Capacitors, isolators, slack and Zeners are measured and move their margins. -/
def Obligations.GaugeMeasurementsMoveTheirMargins : Prop := Claims.CapacitorsAreMeasured ∧ Claims.MarginsFollowTheMeasurements

/-- R460, R469 to R471, R473 (GAUGE_MINUTE, HOURLY_ENTRY, LEDGER_COMMIT, LEDGER_RECOVERY): minutes and entries are counted; a commit puts the same entry into both copies;
recovery takes the newest entry, repairs the copy that lacks it, and without one starts afresh from a genesis entry. -/
def Obligations.TheLedgerIsKeptAndRecovered : Prop :=
  ∀ (s : State) (ratio : Byte) (o : Int) (e : LEntry) (l : List LEntry), s.alive → s.psu.bind = .none →
    let g := s.gauge
    let a := g.copy0.getLast?
    let b := g.copy1.getLast?
    let loaded (t : State) : Prop := t.glb.gauge = true ∧ t.gauge.lseq = e.seq ∧ t.gauge.pon = e.pon ∧ t.gauge.boots = satInc e.boots ∧
      (t.psu.cap, t.psu.esr) = e.capEsr ∧ t.gauge.iso = e.iso ∧ t.gauge.zen = e.zen ∧ t.gauge.tcxo = e.tcxo
    (s.glb.gauge = true → Gives (.gaugeMinute ratio) s fun t => t.gauge.pon = satInc g.pon ∧ t.gauge.eqh = Nat.min (g.eqh + eqMinute s.fan.temp[(7 : Fin 24)]) (0xFFFFFFFF * 3932160) ∧
      (1439 ≤ g.coolMin → (∀ k : Fin 4, g.volt[k] ≤ 88) → t.fan.tLow = false) ∧ t.gauge.copy0 = g.copy0 ∧ t.gauge.copy1 = g.copy1) ∧
    (s.glb.gauge = true → s.tick.role = .follower → s.tick.discEn = true → Gives (.hourlyEntry (some o)) s fun t => t.gauge.tcxo = (clampI (-32768) 32767 o, true)) ∧
    (s.glb.gauge = true → s.tick.role ≠ .follower → g.queue = [] → Gives (.hourlyEntry none) s fun t => t.gauge.tcxo.2 = false ∧ t.gauge.life = s.lifeEstimate ∧
      t.gauge.lifeLow = decide (s.lifeEstimate.1 < g.lifeWarn) ∧ ∃ y, t.gauge.queue.head? = some y ∧ y.kind = 1 ∧ y.seq = g.lseq + 1 ∧ y.pon = g.pon ∧ y.life = s.lifeEstimate) ∧
    (g.queue = e :: l → Gives .ledgerCommit s fun t => t.gauge.queue = l ∧ t.gauge.lseq = e.seq ∧ t.gauge.copy0.getLast? = some e ∧ t.gauge.copy1.getLast? = some e ∧
      (g.pos.1 % 256 ≠ 0 → t.gauge.copy0 = g.copy0 ++ [e]) ∧ (g.pos.2 % 256 ≠ 0 → t.gauge.copy1 = g.copy1 ++ [e]) ∧
      t = { s with gauge := t.gauge }) ∧
    (g.queue = [] → exec .ledgerCommit s = .next s) ∧
    (s.glb.gauge = true → exec .ledgerRecovery s = .next s) ∧
    (s.glb.gauge = false → a = some e → b.all (fun y => y.seq < e.seq) = true → 0 < e.seq → Gives .ledgerRecovery s fun t => loaded t ∧ t.gauge.copy0 = g.copy0 ∧
      t.gauge.copy1.getLast? = some { e with kind := 3 } ∧ (⟨⟨0x1B, 0⟩, 0xC0, 1, 0, s.now, none⟩ : Report) ∈ t.prop.reports) ∧
    (s.glb.gauge = false → b = some e → a.all (fun y => y.seq < e.seq) = true → 0 < e.seq → Gives .ledgerRecovery s fun t => loaded t ∧ t.gauge.copy1 = g.copy1 ∧
      t.gauge.copy0.getLast? = some { e with kind := 3 } ∧ (⟨⟨0x1B, 0⟩, 0xC0, 0, 0, s.now, none⟩ : Report) ∈ t.prop.reports) ∧
    (s.glb.gauge = false → a = some e → b.map (·.seq) = some e.seq → Gives .ledgerRecovery s fun t => loaded t ∧ t.gauge.copy0 = g.copy0 ∧ t.gauge.copy1 = g.copy1) ∧
    (s.glb.gauge = false → g.copy0 = [] → g.copy1 = [] → Gives .ledgerRecovery s fun t => t.glb.gauge = true ∧ t.gauge.lseq = 1 ∧ t.gauge.boots = 1 ∧
      (⟨⟨0x1B, 0⟩, 0xF3, 0, 0, s.now, none⟩ : Report) ∈ t.prop.reports ∧ ∃ y, y.seq = 1 ∧ y.kind = 4 ∧ t.gauge.copy0 = [y] ∧ t.gauge.copy1 = [y])

/-- Power-up, the running image, and the functions as they come up. -/
def Obligations.PowerUpAndBringUp : Prop := Claims.PowerUpAndTheRunningImage ∧ Claims.FunctionsComeUp

/-- The service port, a loss of all supplies, and the mezzanine card. -/
def Obligations.ServicePortLossAndCard : Prop := Claims.TheServicePortAndALossOfSupplies ∧ Claims.TheCardIsIdentifiedAndRemoved
end

