-- ==== Sys2Proof/Laws/Memory.lean ====
section
/-! SUPPORT. The laws of the sparse memories: a read after a write, and that every write keeps the canonical form (log entry 8). -/

namespace Sys2Proof.Machine

/-- Every address listed lies at or above a bound. -/
def Memory.above (m : Mem) (n : Nat) : Prop := ∀ x ∈ m, n ≤ x.1

/-- The canonical form of a list with a head: the head is no zero, the rest lies above it and is canonical. -/
theorem Memory.wf_cons (k : Nat) (b : Byte) (m : Mem) :
    Memory.wf ((k, b) :: m) = true ↔ b ≠ 0 ∧ Memory.above m (k + 1) ∧ Memory.wf m = true := by
  induction m generalizing k b with
  | nil => simp [Memory.wf, Memory.above]
  | cons x m ih =>
    obtain ⟨k', b'⟩ := x
    simp only [Memory.wf, Bool.and_eq_true, bne_iff_ne, ne_eq, decide_eq_true_eq]
    constructor
    · rintro ⟨⟨hb, hk⟩, hw⟩
      refine ⟨hb, fun y hy => ?_, hw⟩
      rcases List.mem_cons.mp hy with rfl | hy
      · exact hk
      · have := ((ih k' b').mp hw).2.1 y hy
        omega
    · rintro ⟨hb, ha, hw⟩
      exact ⟨⟨hb, ha (k', b') (by simp)⟩, hw⟩

/-- A byte below every listed address reads 0. -/
theorem Memory.get_above (m : Mem) (n a : Nat) (h : Memory.above m n) (ha : a < n) : Memory.get m a = 0 := by
  induction m with
  | nil => rfl
  | cons x m ih =>
    obtain ⟨k, b⟩ := x
    have hk : n ≤ k := h (k, b) (by simp)
    simp only [Memory.get]
    rw [if_neg (by omega)]
    exact ih fun y hy => h y (by simp [hy])

/-- A put keeps a bound below its own address. -/
theorem Memory.put_above (m : Mem) (n a : Nat) (b : Byte) (h : Memory.above m n) (ha : n ≤ a) : Memory.above (Memory.put m a b) n := by
  induction m with
  | nil => intro y hy; simp only [Memory.put] at hy; split at hy <;> simp_all
  | cons x m ih =>
    obtain ⟨k, c⟩ := x
    have hk : n ≤ k := h (k, c) (by simp)
    have hm : Memory.above m n := fun y hy => h y (by simp [hy])
    intro y hy
    simp only [Memory.put] at hy
    split at hy
    · split at hy <;> simp only [List.mem_cons] at hy
      · rcases hy with rfl | hy
        · exact hk
        · exact hm y hy
      · rcases hy with rfl | rfl | hy
        · exact ha
        · exact hk
        · exact hm y hy
    · split at hy
      · split at hy
        · exact hm y hy
        · rcases List.mem_cons.mp hy with rfl | hy
          · exact hk
          · exact hm y hy
      · rcases List.mem_cons.mp hy with rfl | hy
        · exact hk
        · exact ih hm y hy

/-- A put keeps the canonical form. -/
theorem Memory.put_wf (m : Mem) (a : Nat) (b : Byte) (h : Memory.wf m = true) : Memory.wf (Memory.put m a b) = true := by
  induction m with
  | nil => simp only [Memory.put]; split <;> simp_all [Memory.wf]
  | cons x m ih =>
    obtain ⟨k, c⟩ := x
    have hx := (Memory.wf_cons k c m).mp h
    simp only [Memory.put]
    split
    · rename_i hak
      split
      · exact h
      · rename_i hb
        refine (Memory.wf_cons a b _).mpr ⟨hb, fun y hy => ?_, h⟩
        rcases List.mem_cons.mp hy with rfl | hy
        · exact hak
        · have := hx.2.1 y hy
          omega
    · split
      · split
        · exact hx.2.2
        · rename_i hb
          exact (Memory.wf_cons k b m).mpr ⟨hb, hx.2⟩
      · exact (Memory.wf_cons k c _).mpr ⟨hx.1, Memory.put_above m (k + 1) a b hx.2.1 (by omega), ih hx.2.2⟩

/-- A write keeps the canonical form. -/
theorem Memory.write_wf (m : Mem) (a : Nat) (bs : List Byte) (h : Memory.wf m = true) : Memory.wf (Memory.write m a bs) = true := by
  induction bs generalizing m a with
  | nil => exact h
  | cons b bs ih => exact ih _ _ (Memory.put_wf m a b h)

/-- A read of the byte put gives it. -/
theorem Memory.get_put_same (m : Mem) (a : Nat) (b : Byte) (h : Memory.wf m = true) : Memory.get (Memory.put m a b) a = b := by
  induction m with
  | nil => simp only [Memory.put]; split <;> simp_all [Memory.get]
  | cons x m ih =>
    obtain ⟨k, c⟩ := x
    have hx := (Memory.wf_cons k c m).mp h
    simp only [Memory.put]
    split
    · rename_i hak
      split
      · rename_i hb
        simp only [Memory.get]
        rw [if_neg (by omega), hb]
        exact Memory.get_above m (k + 1) a hx.2.1 (by omega)
      · simp [Memory.get]
    · split
      · rename_i hak
        split
        · rename_i hb
          rw [hb]
          exact Memory.get_above m (k + 1) a hx.2.1 (by omega)
        · simp [Memory.get, hak]
      · simp only [Memory.get]
        rw [if_neg (by omega)]
        exact ih hx.2.2

/-- A put leaves every other address alone. -/
theorem Memory.get_put_ne (m : Mem) (a i : Nat) (b : Byte) (h : Memory.wf m = true) (hi : i ≠ a) :
    Memory.get (Memory.put m a b) i = Memory.get m i := by
  induction m with
  | nil => simp only [Memory.put]; split <;> simp [Memory.get, Ne.symm hi]
  | cons x m ih =>
    obtain ⟨k, c⟩ := x
    have hx := (Memory.wf_cons k c m).mp h
    simp only [Memory.put]
    split
    · split
      · rfl
      · simp [Memory.get, Ne.symm hi]
    · split
      · rename_i hak
        split
        · simp only [Memory.get]
          rw [if_neg (by omega)]
        · simp only [Memory.get]
          rw [if_neg (by omega), if_neg (by omega)]
      · simp only [Memory.get]
        split
        · rfl
        · exact ih hx.2.2

/-- A write leaves every address outside its bytes alone. -/
theorem Memory.get_write_out (m : Mem) (a i : Nat) (bs : List Byte) (h : Memory.wf m = true) (hi : i < a ∨ a + bs.length ≤ i) :
    Memory.get (Memory.write m a bs) i = Memory.get m i := by
  induction bs generalizing m a with
  | nil => rfl
  | cons b bs ih =>
    simp only [List.length_cons] at hi
    simp only [Memory.write]
    rw [ih _ _ (Memory.put_wf m a b h) (by omega), Memory.get_put_ne m a i b h (by omega)]

/-- A read of the bytes written gives them. -/
theorem Memory.read_write (m : Mem) (a : Nat) (bs : List Byte) (h : Memory.wf m = true) :
    Memory.read (Memory.write m a bs) a bs.length = bs := by
  induction bs generalizing m a with
  | nil => rfl
  | cons b bs ih =>
    simp only [Memory.write, List.length_cons, Memory.read]
    rw [ih _ _ (Memory.put_wf m a b h), Memory.get_write_out _ _ _ _ (Memory.put_wf m a b h) (by omega), Memory.get_put_same m a b h]

end Sys2Proof.Machine
end

