-- ==== Sys2Proof/Laws/State.lean ====
section
/-! SUPPORT. The small lemmas of the state's updates: what each leaves alone, one lemma per field, and what it writes. -/

namespace Sys2Proof.Machine

variable (s : State)

/-! ### modPort -/

@[simp] theorem State.modPort_same (p : PortIx) (f : Port → Port) : (s.modPort p f).ports[p.val] = f s.ports[p.val] := by simp [State.modPort]
theorem State.modPort_ne (p i : PortIx) (f : Port → Port) (h : i ≠ p) : (s.modPort p f).ports[i.val] = s.ports[i.val] := by
  have h' : p.val ≠ i.val := fun e => h (Fin.ext e.symm)
  simp [State.modPort, Vector.getElem_set_ne, h']
@[simp] theorem State.modPort_pending (p : PortIx) (f : Port → Port) : (s.modPort p f).pending = s.pending := rfl
@[simp] theorem State.modPort_tick (p : PortIx) (f : Port → Port) : (s.modPort p f).tick = s.tick := rfl
@[simp] theorem State.modPort_glb (p : PortIx) (f : Port → Port) : (s.modPort p f).glb = s.glb := rfl
@[simp] theorem State.modPort_combs (p : PortIx) (f : Port → Port) : (s.modPort p f).combs = s.combs := rfl
@[simp] theorem State.modPort_pairs (p : PortIx) (f : Port → Port) : (s.modPort p f).pairs = s.pairs := rfl
@[simp] theorem State.modPort_chans (p : PortIx) (f : Port → Port) : (s.modPort p f).chans = s.chans := rfl
@[simp] theorem State.modPort_cores (p : PortIx) (f : Port → Port) : (s.modPort p f).cores = s.cores := rfl
@[simp] theorem State.modPort_csram (p : PortIx) (f : Port → Port) : (s.modPort p f).csram = s.csram := rfl
@[simp] theorem State.modPort_lmem (p : PortIx) (f : Port → Port) : (s.modPort p f).lmem = s.lmem := rfl
@[simp] theorem State.modPort_mcs (p : PortIx) (f : Port → Port) : (s.modPort p f).mcs = s.mcs := rfl
@[simp] theorem State.modPort_qps (p : PortIx) (f : Port → Port) : (s.modPort p f).qps = s.qps := rfl
@[simp] theorem State.modPort_rules (p : PortIx) (f : Port → Port) : (s.modPort p f).rules = s.rules := rfl
@[simp] theorem State.modPort_blk (p : PortIx) (f : Port → Port) : (s.modPort p f).blk = s.blk := rfl
@[simp] theorem State.modPort_rx (p : PortIx) (f : Port → Port) : (s.modPort p f).rx = s.rx := rfl
@[simp] theorem State.modPort_prop (p : PortIx) (f : Port → Port) : (s.modPort p f).prop = s.prop := rfl
@[simp] theorem State.modPort_hq (p : PortIx) (f : Port → Port) : (s.modPort p f).hq = s.hq := rfl
@[simp] theorem State.modPort_fan (p : PortIx) (f : Port → Port) : (s.modPort p f).fan = s.fan := rfl
@[simp] theorem State.modPort_psu (p : PortIx) (f : Port → Port) : (s.modPort p f).psu = s.psu := rfl
@[simp] theorem State.modPort_gauge (p : PortIx) (f : Port → Port) : (s.modPort p f).gauge = s.gauge := rfl
@[simp] theorem State.modPort_cast (p : PortIx) (f : Port → Port) : (s.modPort p f).cast = s.cast := rfl
@[simp] theorem State.modPort_mezz (p : PortIx) (f : Port → Port) : (s.modPort p f).mezz = s.mezz := rfl
@[simp] theorem State.modPort_lastRead (p : PortIx) (f : Port → Port) : (s.modPort p f).lastRead = s.lastRead := rfl
@[simp] theorem State.modPort_out (p : PortIx) (f : Port → Port) : (s.modPort p f).out = s.out := rfl
@[simp] theorem State.modPort_free (p : PortIx) (f : Port → Port) : (s.modPort p f).free = s.free := rfl

/-! ### modComb -/

@[simp] theorem State.modComb_same (c : CombIx) (f : Comb → Comb) : (s.modComb c f).combs[c.val] = f s.combs[c.val] := by simp [State.modComb]
theorem State.modComb_ne (c i : CombIx) (f : Comb → Comb) (h : i ≠ c) : (s.modComb c f).combs[i.val] = s.combs[i.val] := by
  have h' : c.val ≠ i.val := fun e => h (Fin.ext e.symm)
  simp [State.modComb, Vector.getElem_set_ne, h']
@[simp] theorem State.modComb_pending (c : CombIx) (f : Comb → Comb) : (s.modComb c f).pending = s.pending := rfl
@[simp] theorem State.modComb_tick (c : CombIx) (f : Comb → Comb) : (s.modComb c f).tick = s.tick := rfl
@[simp] theorem State.modComb_glb (c : CombIx) (f : Comb → Comb) : (s.modComb c f).glb = s.glb := rfl
@[simp] theorem State.modComb_ports (c : CombIx) (f : Comb → Comb) : (s.modComb c f).ports = s.ports := rfl
@[simp] theorem State.modComb_pairs (c : CombIx) (f : Comb → Comb) : (s.modComb c f).pairs = s.pairs := rfl
@[simp] theorem State.modComb_chans (c : CombIx) (f : Comb → Comb) : (s.modComb c f).chans = s.chans := rfl
@[simp] theorem State.modComb_cores (c : CombIx) (f : Comb → Comb) : (s.modComb c f).cores = s.cores := rfl
@[simp] theorem State.modComb_csram (c : CombIx) (f : Comb → Comb) : (s.modComb c f).csram = s.csram := rfl
@[simp] theorem State.modComb_lmem (c : CombIx) (f : Comb → Comb) : (s.modComb c f).lmem = s.lmem := rfl
@[simp] theorem State.modComb_mcs (c : CombIx) (f : Comb → Comb) : (s.modComb c f).mcs = s.mcs := rfl
@[simp] theorem State.modComb_qps (c : CombIx) (f : Comb → Comb) : (s.modComb c f).qps = s.qps := rfl
@[simp] theorem State.modComb_rules (c : CombIx) (f : Comb → Comb) : (s.modComb c f).rules = s.rules := rfl
@[simp] theorem State.modComb_blk (c : CombIx) (f : Comb → Comb) : (s.modComb c f).blk = s.blk := rfl
@[simp] theorem State.modComb_rx (c : CombIx) (f : Comb → Comb) : (s.modComb c f).rx = s.rx := rfl
@[simp] theorem State.modComb_prop (c : CombIx) (f : Comb → Comb) : (s.modComb c f).prop = s.prop := rfl
@[simp] theorem State.modComb_hq (c : CombIx) (f : Comb → Comb) : (s.modComb c f).hq = s.hq := rfl
@[simp] theorem State.modComb_fan (c : CombIx) (f : Comb → Comb) : (s.modComb c f).fan = s.fan := rfl
@[simp] theorem State.modComb_psu (c : CombIx) (f : Comb → Comb) : (s.modComb c f).psu = s.psu := rfl
@[simp] theorem State.modComb_gauge (c : CombIx) (f : Comb → Comb) : (s.modComb c f).gauge = s.gauge := rfl
@[simp] theorem State.modComb_cast (c : CombIx) (f : Comb → Comb) : (s.modComb c f).cast = s.cast := rfl
@[simp] theorem State.modComb_mezz (c : CombIx) (f : Comb → Comb) : (s.modComb c f).mezz = s.mezz := rfl
@[simp] theorem State.modComb_lastRead (c : CombIx) (f : Comb → Comb) : (s.modComb c f).lastRead = s.lastRead := rfl
@[simp] theorem State.modComb_out (c : CombIx) (f : Comb → Comb) : (s.modComb c f).out = s.out := rfl
@[simp] theorem State.modComb_free (c : CombIx) (f : Comb → Comb) : (s.modComb c f).free = s.free := rfl

/-! ### modPair -/

@[simp] theorem State.modPair_same (j : PairIx) (f : Pair → Pair) : (s.modPair j f).pairs[j.val] = f s.pairs[j.val] := by simp [State.modPair]
theorem State.modPair_ne (j i : PairIx) (f : Pair → Pair) (h : i ≠ j) : (s.modPair j f).pairs[i.val] = s.pairs[i.val] := by
  have h' : j.val ≠ i.val := fun e => h (Fin.ext e.symm)
  simp [State.modPair, Vector.getElem_set_ne, h']
@[simp] theorem State.modPair_pending (j : PairIx) (f : Pair → Pair) : (s.modPair j f).pending = s.pending := rfl
@[simp] theorem State.modPair_tick (j : PairIx) (f : Pair → Pair) : (s.modPair j f).tick = s.tick := rfl
@[simp] theorem State.modPair_glb (j : PairIx) (f : Pair → Pair) : (s.modPair j f).glb = s.glb := rfl
@[simp] theorem State.modPair_ports (j : PairIx) (f : Pair → Pair) : (s.modPair j f).ports = s.ports := rfl
@[simp] theorem State.modPair_combs (j : PairIx) (f : Pair → Pair) : (s.modPair j f).combs = s.combs := rfl
@[simp] theorem State.modPair_chans (j : PairIx) (f : Pair → Pair) : (s.modPair j f).chans = s.chans := rfl
@[simp] theorem State.modPair_cores (j : PairIx) (f : Pair → Pair) : (s.modPair j f).cores = s.cores := rfl
@[simp] theorem State.modPair_csram (j : PairIx) (f : Pair → Pair) : (s.modPair j f).csram = s.csram := rfl
@[simp] theorem State.modPair_lmem (j : PairIx) (f : Pair → Pair) : (s.modPair j f).lmem = s.lmem := rfl
@[simp] theorem State.modPair_mcs (j : PairIx) (f : Pair → Pair) : (s.modPair j f).mcs = s.mcs := rfl
@[simp] theorem State.modPair_qps (j : PairIx) (f : Pair → Pair) : (s.modPair j f).qps = s.qps := rfl
@[simp] theorem State.modPair_rules (j : PairIx) (f : Pair → Pair) : (s.modPair j f).rules = s.rules := rfl
@[simp] theorem State.modPair_blk (j : PairIx) (f : Pair → Pair) : (s.modPair j f).blk = s.blk := rfl
@[simp] theorem State.modPair_rx (j : PairIx) (f : Pair → Pair) : (s.modPair j f).rx = s.rx := rfl
@[simp] theorem State.modPair_prop (j : PairIx) (f : Pair → Pair) : (s.modPair j f).prop = s.prop := rfl
@[simp] theorem State.modPair_hq (j : PairIx) (f : Pair → Pair) : (s.modPair j f).hq = s.hq := rfl
@[simp] theorem State.modPair_fan (j : PairIx) (f : Pair → Pair) : (s.modPair j f).fan = s.fan := rfl
@[simp] theorem State.modPair_psu (j : PairIx) (f : Pair → Pair) : (s.modPair j f).psu = s.psu := rfl
@[simp] theorem State.modPair_gauge (j : PairIx) (f : Pair → Pair) : (s.modPair j f).gauge = s.gauge := rfl
@[simp] theorem State.modPair_cast (j : PairIx) (f : Pair → Pair) : (s.modPair j f).cast = s.cast := rfl
@[simp] theorem State.modPair_mezz (j : PairIx) (f : Pair → Pair) : (s.modPair j f).mezz = s.mezz := rfl
@[simp] theorem State.modPair_lastRead (j : PairIx) (f : Pair → Pair) : (s.modPair j f).lastRead = s.lastRead := rfl
@[simp] theorem State.modPair_out (j : PairIx) (f : Pair → Pair) : (s.modPair j f).out = s.out := rfl
@[simp] theorem State.modPair_free (j : PairIx) (f : Pair → Pair) : (s.modPair j f).free = s.free := rfl

/-! ### modChan -/

@[simp] theorem State.modChan_same (n : ChIx) (f : Chan → Chan) : (s.modChan n f).chans[n.val] = f s.chans[n.val] := by simp [State.modChan]
theorem State.modChan_ne (n i : ChIx) (f : Chan → Chan) (h : i ≠ n) : (s.modChan n f).chans[i.val] = s.chans[i.val] := by
  have h' : n.val ≠ i.val := fun e => h (Fin.ext e.symm)
  simp [State.modChan, Vector.getElem_set_ne, h']
@[simp] theorem State.modChan_pending (n : ChIx) (f : Chan → Chan) : (s.modChan n f).pending = s.pending := rfl
@[simp] theorem State.modChan_tick (n : ChIx) (f : Chan → Chan) : (s.modChan n f).tick = s.tick := rfl
@[simp] theorem State.modChan_glb (n : ChIx) (f : Chan → Chan) : (s.modChan n f).glb = s.glb := rfl
@[simp] theorem State.modChan_ports (n : ChIx) (f : Chan → Chan) : (s.modChan n f).ports = s.ports := rfl
@[simp] theorem State.modChan_combs (n : ChIx) (f : Chan → Chan) : (s.modChan n f).combs = s.combs := rfl
@[simp] theorem State.modChan_pairs (n : ChIx) (f : Chan → Chan) : (s.modChan n f).pairs = s.pairs := rfl
@[simp] theorem State.modChan_cores (n : ChIx) (f : Chan → Chan) : (s.modChan n f).cores = s.cores := rfl
@[simp] theorem State.modChan_csram (n : ChIx) (f : Chan → Chan) : (s.modChan n f).csram = s.csram := rfl
@[simp] theorem State.modChan_lmem (n : ChIx) (f : Chan → Chan) : (s.modChan n f).lmem = s.lmem := rfl
@[simp] theorem State.modChan_mcs (n : ChIx) (f : Chan → Chan) : (s.modChan n f).mcs = s.mcs := rfl
@[simp] theorem State.modChan_qps (n : ChIx) (f : Chan → Chan) : (s.modChan n f).qps = s.qps := rfl
@[simp] theorem State.modChan_rules (n : ChIx) (f : Chan → Chan) : (s.modChan n f).rules = s.rules := rfl
@[simp] theorem State.modChan_blk (n : ChIx) (f : Chan → Chan) : (s.modChan n f).blk = s.blk := rfl
@[simp] theorem State.modChan_rx (n : ChIx) (f : Chan → Chan) : (s.modChan n f).rx = s.rx := rfl
@[simp] theorem State.modChan_prop (n : ChIx) (f : Chan → Chan) : (s.modChan n f).prop = s.prop := rfl
@[simp] theorem State.modChan_hq (n : ChIx) (f : Chan → Chan) : (s.modChan n f).hq = s.hq := rfl
@[simp] theorem State.modChan_fan (n : ChIx) (f : Chan → Chan) : (s.modChan n f).fan = s.fan := rfl
@[simp] theorem State.modChan_psu (n : ChIx) (f : Chan → Chan) : (s.modChan n f).psu = s.psu := rfl
@[simp] theorem State.modChan_gauge (n : ChIx) (f : Chan → Chan) : (s.modChan n f).gauge = s.gauge := rfl
@[simp] theorem State.modChan_cast (n : ChIx) (f : Chan → Chan) : (s.modChan n f).cast = s.cast := rfl
@[simp] theorem State.modChan_mezz (n : ChIx) (f : Chan → Chan) : (s.modChan n f).mezz = s.mezz := rfl
@[simp] theorem State.modChan_lastRead (n : ChIx) (f : Chan → Chan) : (s.modChan n f).lastRead = s.lastRead := rfl
@[simp] theorem State.modChan_out (n : ChIx) (f : Chan → Chan) : (s.modChan n f).out = s.out := rfl
@[simp] theorem State.modChan_free (n : ChIx) (f : Chan → Chan) : (s.modChan n f).free = s.free := rfl

/-! ### modCore -/

@[simp] theorem State.modCore_same (k : CoreIx) (f : Core → Core) : (s.modCore k f).cores[k.val] = f s.cores[k.val] := by simp [State.modCore]
theorem State.modCore_ne (k i : CoreIx) (f : Core → Core) (h : i ≠ k) : (s.modCore k f).cores[i.val] = s.cores[i.val] := by
  have h' : k.val ≠ i.val := fun e => h (Fin.ext e.symm)
  simp [State.modCore, Vector.getElem_set_ne, h']
@[simp] theorem State.modCore_pending (k : CoreIx) (f : Core → Core) : (s.modCore k f).pending = s.pending := rfl
@[simp] theorem State.modCore_tick (k : CoreIx) (f : Core → Core) : (s.modCore k f).tick = s.tick := rfl
@[simp] theorem State.modCore_glb (k : CoreIx) (f : Core → Core) : (s.modCore k f).glb = s.glb := rfl
@[simp] theorem State.modCore_ports (k : CoreIx) (f : Core → Core) : (s.modCore k f).ports = s.ports := rfl
@[simp] theorem State.modCore_combs (k : CoreIx) (f : Core → Core) : (s.modCore k f).combs = s.combs := rfl
@[simp] theorem State.modCore_pairs (k : CoreIx) (f : Core → Core) : (s.modCore k f).pairs = s.pairs := rfl
@[simp] theorem State.modCore_chans (k : CoreIx) (f : Core → Core) : (s.modCore k f).chans = s.chans := rfl
@[simp] theorem State.modCore_csram (k : CoreIx) (f : Core → Core) : (s.modCore k f).csram = s.csram := rfl
@[simp] theorem State.modCore_lmem (k : CoreIx) (f : Core → Core) : (s.modCore k f).lmem = s.lmem := rfl
@[simp] theorem State.modCore_mcs (k : CoreIx) (f : Core → Core) : (s.modCore k f).mcs = s.mcs := rfl
@[simp] theorem State.modCore_qps (k : CoreIx) (f : Core → Core) : (s.modCore k f).qps = s.qps := rfl
@[simp] theorem State.modCore_rules (k : CoreIx) (f : Core → Core) : (s.modCore k f).rules = s.rules := rfl
@[simp] theorem State.modCore_blk (k : CoreIx) (f : Core → Core) : (s.modCore k f).blk = s.blk := rfl
@[simp] theorem State.modCore_rx (k : CoreIx) (f : Core → Core) : (s.modCore k f).rx = s.rx := rfl
@[simp] theorem State.modCore_prop (k : CoreIx) (f : Core → Core) : (s.modCore k f).prop = s.prop := rfl
@[simp] theorem State.modCore_hq (k : CoreIx) (f : Core → Core) : (s.modCore k f).hq = s.hq := rfl
@[simp] theorem State.modCore_fan (k : CoreIx) (f : Core → Core) : (s.modCore k f).fan = s.fan := rfl
@[simp] theorem State.modCore_psu (k : CoreIx) (f : Core → Core) : (s.modCore k f).psu = s.psu := rfl
@[simp] theorem State.modCore_gauge (k : CoreIx) (f : Core → Core) : (s.modCore k f).gauge = s.gauge := rfl
@[simp] theorem State.modCore_cast (k : CoreIx) (f : Core → Core) : (s.modCore k f).cast = s.cast := rfl
@[simp] theorem State.modCore_mezz (k : CoreIx) (f : Core → Core) : (s.modCore k f).mezz = s.mezz := rfl
@[simp] theorem State.modCore_lastRead (k : CoreIx) (f : Core → Core) : (s.modCore k f).lastRead = s.lastRead := rfl
@[simp] theorem State.modCore_out (k : CoreIx) (f : Core → Core) : (s.modCore k f).out = s.out := rfl
@[simp] theorem State.modCore_free (k : CoreIx) (f : Core → Core) : (s.modCore k f).free = s.free := rfl

/-! ### modMc -/

@[simp] theorem State.modMc_same (m : McIx) (f : Mc → Mc) : (s.modMc m f).mcs[m.val] = f s.mcs[m.val] := by simp [State.modMc]
theorem State.modMc_ne (m i : McIx) (f : Mc → Mc) (h : i ≠ m) : (s.modMc m f).mcs[i.val] = s.mcs[i.val] := by
  have h' : m.val ≠ i.val := fun e => h (Fin.ext e.symm)
  simp [State.modMc, Vector.getElem_set_ne, h']
@[simp] theorem State.modMc_pending (m : McIx) (f : Mc → Mc) : (s.modMc m f).pending = s.pending := rfl
@[simp] theorem State.modMc_tick (m : McIx) (f : Mc → Mc) : (s.modMc m f).tick = s.tick := rfl
@[simp] theorem State.modMc_glb (m : McIx) (f : Mc → Mc) : (s.modMc m f).glb = s.glb := rfl
@[simp] theorem State.modMc_ports (m : McIx) (f : Mc → Mc) : (s.modMc m f).ports = s.ports := rfl
@[simp] theorem State.modMc_combs (m : McIx) (f : Mc → Mc) : (s.modMc m f).combs = s.combs := rfl
@[simp] theorem State.modMc_pairs (m : McIx) (f : Mc → Mc) : (s.modMc m f).pairs = s.pairs := rfl
@[simp] theorem State.modMc_chans (m : McIx) (f : Mc → Mc) : (s.modMc m f).chans = s.chans := rfl
@[simp] theorem State.modMc_cores (m : McIx) (f : Mc → Mc) : (s.modMc m f).cores = s.cores := rfl
@[simp] theorem State.modMc_csram (m : McIx) (f : Mc → Mc) : (s.modMc m f).csram = s.csram := rfl
@[simp] theorem State.modMc_lmem (m : McIx) (f : Mc → Mc) : (s.modMc m f).lmem = s.lmem := rfl
@[simp] theorem State.modMc_qps (m : McIx) (f : Mc → Mc) : (s.modMc m f).qps = s.qps := rfl
@[simp] theorem State.modMc_rules (m : McIx) (f : Mc → Mc) : (s.modMc m f).rules = s.rules := rfl
@[simp] theorem State.modMc_blk (m : McIx) (f : Mc → Mc) : (s.modMc m f).blk = s.blk := rfl
@[simp] theorem State.modMc_rx (m : McIx) (f : Mc → Mc) : (s.modMc m f).rx = s.rx := rfl
@[simp] theorem State.modMc_prop (m : McIx) (f : Mc → Mc) : (s.modMc m f).prop = s.prop := rfl
@[simp] theorem State.modMc_hq (m : McIx) (f : Mc → Mc) : (s.modMc m f).hq = s.hq := rfl
@[simp] theorem State.modMc_fan (m : McIx) (f : Mc → Mc) : (s.modMc m f).fan = s.fan := rfl
@[simp] theorem State.modMc_psu (m : McIx) (f : Mc → Mc) : (s.modMc m f).psu = s.psu := rfl
@[simp] theorem State.modMc_gauge (m : McIx) (f : Mc → Mc) : (s.modMc m f).gauge = s.gauge := rfl
@[simp] theorem State.modMc_cast (m : McIx) (f : Mc → Mc) : (s.modMc m f).cast = s.cast := rfl
@[simp] theorem State.modMc_mezz (m : McIx) (f : Mc → Mc) : (s.modMc m f).mezz = s.mezz := rfl
@[simp] theorem State.modMc_lastRead (m : McIx) (f : Mc → Mc) : (s.modMc m f).lastRead = s.lastRead := rfl
@[simp] theorem State.modMc_out (m : McIx) (f : Mc → Mc) : (s.modMc m f).out = s.out := rfl
@[simp] theorem State.modMc_free (m : McIx) (f : Mc → Mc) : (s.modMc m f).free = s.free := rfl

/-! ### modQp -/

@[simp] theorem State.modQp_same (q : QpIx) (f : Qp → Qp) : (s.modQp q f).qps[q.val] = f s.qps[q.val] := by simp [State.modQp]
theorem State.modQp_ne (q i : QpIx) (f : Qp → Qp) (h : i ≠ q) : (s.modQp q f).qps[i.val] = s.qps[i.val] := by
  have h' : q.val ≠ i.val := fun e => h (Fin.ext e.symm)
  simp [State.modQp, Vector.getElem_set_ne, h']
@[simp] theorem State.modQp_pending (q : QpIx) (f : Qp → Qp) : (s.modQp q f).pending = s.pending := rfl
@[simp] theorem State.modQp_tick (q : QpIx) (f : Qp → Qp) : (s.modQp q f).tick = s.tick := rfl
@[simp] theorem State.modQp_glb (q : QpIx) (f : Qp → Qp) : (s.modQp q f).glb = s.glb := rfl
@[simp] theorem State.modQp_ports (q : QpIx) (f : Qp → Qp) : (s.modQp q f).ports = s.ports := rfl
@[simp] theorem State.modQp_combs (q : QpIx) (f : Qp → Qp) : (s.modQp q f).combs = s.combs := rfl
@[simp] theorem State.modQp_pairs (q : QpIx) (f : Qp → Qp) : (s.modQp q f).pairs = s.pairs := rfl
@[simp] theorem State.modQp_chans (q : QpIx) (f : Qp → Qp) : (s.modQp q f).chans = s.chans := rfl
@[simp] theorem State.modQp_cores (q : QpIx) (f : Qp → Qp) : (s.modQp q f).cores = s.cores := rfl
@[simp] theorem State.modQp_csram (q : QpIx) (f : Qp → Qp) : (s.modQp q f).csram = s.csram := rfl
@[simp] theorem State.modQp_lmem (q : QpIx) (f : Qp → Qp) : (s.modQp q f).lmem = s.lmem := rfl
@[simp] theorem State.modQp_mcs (q : QpIx) (f : Qp → Qp) : (s.modQp q f).mcs = s.mcs := rfl
@[simp] theorem State.modQp_rules (q : QpIx) (f : Qp → Qp) : (s.modQp q f).rules = s.rules := rfl
@[simp] theorem State.modQp_blk (q : QpIx) (f : Qp → Qp) : (s.modQp q f).blk = s.blk := rfl
@[simp] theorem State.modQp_rx (q : QpIx) (f : Qp → Qp) : (s.modQp q f).rx = s.rx := rfl
@[simp] theorem State.modQp_prop (q : QpIx) (f : Qp → Qp) : (s.modQp q f).prop = s.prop := rfl
@[simp] theorem State.modQp_hq (q : QpIx) (f : Qp → Qp) : (s.modQp q f).hq = s.hq := rfl
@[simp] theorem State.modQp_fan (q : QpIx) (f : Qp → Qp) : (s.modQp q f).fan = s.fan := rfl
@[simp] theorem State.modQp_psu (q : QpIx) (f : Qp → Qp) : (s.modQp q f).psu = s.psu := rfl
@[simp] theorem State.modQp_gauge (q : QpIx) (f : Qp → Qp) : (s.modQp q f).gauge = s.gauge := rfl
@[simp] theorem State.modQp_cast (q : QpIx) (f : Qp → Qp) : (s.modQp q f).cast = s.cast := rfl
@[simp] theorem State.modQp_mezz (q : QpIx) (f : Qp → Qp) : (s.modQp q f).mezz = s.mezz := rfl
@[simp] theorem State.modQp_lastRead (q : QpIx) (f : Qp → Qp) : (s.modQp q f).lastRead = s.lastRead := rfl
@[simp] theorem State.modQp_out (q : QpIx) (f : Qp → Qp) : (s.modQp q f).out = s.out := rfl
@[simp] theorem State.modQp_free (q : QpIx) (f : Qp → Qp) : (s.modQp q f).free = s.free := rfl

/-! ### modRule -/

@[simp] theorem State.modRule_same (r : RuleIx) (f : Rule → Rule) : (s.modRule r f).rules[r.val] = f s.rules[r.val] := by simp [State.modRule]
theorem State.modRule_ne (r i : RuleIx) (f : Rule → Rule) (h : i ≠ r) : (s.modRule r f).rules[i.val] = s.rules[i.val] := by
  have h' : r.val ≠ i.val := fun e => h (Fin.ext e.symm)
  simp [State.modRule, Vector.getElem_set_ne, h']
@[simp] theorem State.modRule_pending (r : RuleIx) (f : Rule → Rule) : (s.modRule r f).pending = s.pending := rfl
@[simp] theorem State.modRule_tick (r : RuleIx) (f : Rule → Rule) : (s.modRule r f).tick = s.tick := rfl
@[simp] theorem State.modRule_glb (r : RuleIx) (f : Rule → Rule) : (s.modRule r f).glb = s.glb := rfl
@[simp] theorem State.modRule_ports (r : RuleIx) (f : Rule → Rule) : (s.modRule r f).ports = s.ports := rfl
@[simp] theorem State.modRule_combs (r : RuleIx) (f : Rule → Rule) : (s.modRule r f).combs = s.combs := rfl
@[simp] theorem State.modRule_pairs (r : RuleIx) (f : Rule → Rule) : (s.modRule r f).pairs = s.pairs := rfl
@[simp] theorem State.modRule_chans (r : RuleIx) (f : Rule → Rule) : (s.modRule r f).chans = s.chans := rfl
@[simp] theorem State.modRule_cores (r : RuleIx) (f : Rule → Rule) : (s.modRule r f).cores = s.cores := rfl
@[simp] theorem State.modRule_csram (r : RuleIx) (f : Rule → Rule) : (s.modRule r f).csram = s.csram := rfl
@[simp] theorem State.modRule_lmem (r : RuleIx) (f : Rule → Rule) : (s.modRule r f).lmem = s.lmem := rfl
@[simp] theorem State.modRule_mcs (r : RuleIx) (f : Rule → Rule) : (s.modRule r f).mcs = s.mcs := rfl
@[simp] theorem State.modRule_qps (r : RuleIx) (f : Rule → Rule) : (s.modRule r f).qps = s.qps := rfl
@[simp] theorem State.modRule_blk (r : RuleIx) (f : Rule → Rule) : (s.modRule r f).blk = s.blk := rfl
@[simp] theorem State.modRule_rx (r : RuleIx) (f : Rule → Rule) : (s.modRule r f).rx = s.rx := rfl
@[simp] theorem State.modRule_prop (r : RuleIx) (f : Rule → Rule) : (s.modRule r f).prop = s.prop := rfl
@[simp] theorem State.modRule_hq (r : RuleIx) (f : Rule → Rule) : (s.modRule r f).hq = s.hq := rfl
@[simp] theorem State.modRule_fan (r : RuleIx) (f : Rule → Rule) : (s.modRule r f).fan = s.fan := rfl
@[simp] theorem State.modRule_psu (r : RuleIx) (f : Rule → Rule) : (s.modRule r f).psu = s.psu := rfl
@[simp] theorem State.modRule_gauge (r : RuleIx) (f : Rule → Rule) : (s.modRule r f).gauge = s.gauge := rfl
@[simp] theorem State.modRule_cast (r : RuleIx) (f : Rule → Rule) : (s.modRule r f).cast = s.cast := rfl
@[simp] theorem State.modRule_mezz (r : RuleIx) (f : Rule → Rule) : (s.modRule r f).mezz = s.mezz := rfl
@[simp] theorem State.modRule_lastRead (r : RuleIx) (f : Rule → Rule) : (s.modRule r f).lastRead = s.lastRead := rfl
@[simp] theorem State.modRule_out (r : RuleIx) (f : Rule → Rule) : (s.modRule r f).out = s.out := rfl
@[simp] theorem State.modRule_free (r : RuleIx) (f : Rule → Rule) : (s.modRule r f).free = s.free := rfl

/-! ### modVec -/

@[simp] theorem State.modVec_same (v : VecIx) (f : Vec → Vec) : (s.modVec v f).hq.vecs[v.val] = f s.hq.vecs[v.val] := by simp [State.modVec]
theorem State.modVec_ne (v i : VecIx) (f : Vec → Vec) (h : i ≠ v) : (s.modVec v f).hq.vecs[i.val] = s.hq.vecs[i.val] := by
  have h' : v.val ≠ i.val := fun e => h (Fin.ext e.symm)
  simp [State.modVec, Vector.getElem_set_ne, h']
@[simp] theorem State.modVec_pending (v : VecIx) (f : Vec → Vec) : (s.modVec v f).pending = s.pending := rfl
@[simp] theorem State.modVec_tick (v : VecIx) (f : Vec → Vec) : (s.modVec v f).tick = s.tick := rfl
@[simp] theorem State.modVec_glb (v : VecIx) (f : Vec → Vec) : (s.modVec v f).glb = s.glb := rfl
@[simp] theorem State.modVec_ports (v : VecIx) (f : Vec → Vec) : (s.modVec v f).ports = s.ports := rfl
@[simp] theorem State.modVec_combs (v : VecIx) (f : Vec → Vec) : (s.modVec v f).combs = s.combs := rfl
@[simp] theorem State.modVec_pairs (v : VecIx) (f : Vec → Vec) : (s.modVec v f).pairs = s.pairs := rfl
@[simp] theorem State.modVec_chans (v : VecIx) (f : Vec → Vec) : (s.modVec v f).chans = s.chans := rfl
@[simp] theorem State.modVec_cores (v : VecIx) (f : Vec → Vec) : (s.modVec v f).cores = s.cores := rfl
@[simp] theorem State.modVec_csram (v : VecIx) (f : Vec → Vec) : (s.modVec v f).csram = s.csram := rfl
@[simp] theorem State.modVec_lmem (v : VecIx) (f : Vec → Vec) : (s.modVec v f).lmem = s.lmem := rfl
@[simp] theorem State.modVec_mcs (v : VecIx) (f : Vec → Vec) : (s.modVec v f).mcs = s.mcs := rfl
@[simp] theorem State.modVec_qps (v : VecIx) (f : Vec → Vec) : (s.modVec v f).qps = s.qps := rfl
@[simp] theorem State.modVec_rules (v : VecIx) (f : Vec → Vec) : (s.modVec v f).rules = s.rules := rfl
@[simp] theorem State.modVec_blk (v : VecIx) (f : Vec → Vec) : (s.modVec v f).blk = s.blk := rfl
@[simp] theorem State.modVec_rx (v : VecIx) (f : Vec → Vec) : (s.modVec v f).rx = s.rx := rfl
@[simp] theorem State.modVec_prop (v : VecIx) (f : Vec → Vec) : (s.modVec v f).prop = s.prop := rfl
@[simp] theorem State.modVec_fan (v : VecIx) (f : Vec → Vec) : (s.modVec v f).fan = s.fan := rfl
@[simp] theorem State.modVec_psu (v : VecIx) (f : Vec → Vec) : (s.modVec v f).psu = s.psu := rfl
@[simp] theorem State.modVec_gauge (v : VecIx) (f : Vec → Vec) : (s.modVec v f).gauge = s.gauge := rfl
@[simp] theorem State.modVec_cast (v : VecIx) (f : Vec → Vec) : (s.modVec v f).cast = s.cast := rfl
@[simp] theorem State.modVec_mezz (v : VecIx) (f : Vec → Vec) : (s.modVec v f).mezz = s.mezz := rfl
@[simp] theorem State.modVec_lastRead (v : VecIx) (f : Vec → Vec) : (s.modVec v f).lastRead = s.lastRead := rfl
@[simp] theorem State.modVec_out (v : VecIx) (f : Vec → Vec) : (s.modVec v f).out = s.out := rfl
@[simp] theorem State.modVec_free (v : VecIx) (f : Vec → Vec) : (s.modVec v f).free = s.free := rfl

/-! ### emit -/

@[simp] theorem State.emit_pending (e : Emit) : (s.emit e).pending = s.pending := rfl
@[simp] theorem State.emit_tick (e : Emit) : (s.emit e).tick = s.tick := rfl
@[simp] theorem State.emit_glb (e : Emit) : (s.emit e).glb = s.glb := rfl
@[simp] theorem State.emit_ports (e : Emit) : (s.emit e).ports = s.ports := rfl
@[simp] theorem State.emit_combs (e : Emit) : (s.emit e).combs = s.combs := rfl
@[simp] theorem State.emit_pairs (e : Emit) : (s.emit e).pairs = s.pairs := rfl
@[simp] theorem State.emit_chans (e : Emit) : (s.emit e).chans = s.chans := rfl
@[simp] theorem State.emit_cores (e : Emit) : (s.emit e).cores = s.cores := rfl
@[simp] theorem State.emit_csram (e : Emit) : (s.emit e).csram = s.csram := rfl
@[simp] theorem State.emit_lmem (e : Emit) : (s.emit e).lmem = s.lmem := rfl
@[simp] theorem State.emit_mcs (e : Emit) : (s.emit e).mcs = s.mcs := rfl
@[simp] theorem State.emit_qps (e : Emit) : (s.emit e).qps = s.qps := rfl
@[simp] theorem State.emit_rules (e : Emit) : (s.emit e).rules = s.rules := rfl
@[simp] theorem State.emit_blk (e : Emit) : (s.emit e).blk = s.blk := rfl
@[simp] theorem State.emit_rx (e : Emit) : (s.emit e).rx = s.rx := rfl
@[simp] theorem State.emit_prop (e : Emit) : (s.emit e).prop = s.prop := rfl
@[simp] theorem State.emit_hq (e : Emit) : (s.emit e).hq = s.hq := rfl
@[simp] theorem State.emit_fan (e : Emit) : (s.emit e).fan = s.fan := rfl
@[simp] theorem State.emit_psu (e : Emit) : (s.emit e).psu = s.psu := rfl
@[simp] theorem State.emit_gauge (e : Emit) : (s.emit e).gauge = s.gauge := rfl
@[simp] theorem State.emit_cast (e : Emit) : (s.emit e).cast = s.cast := rfl
@[simp] theorem State.emit_mezz (e : Emit) : (s.emit e).mezz = s.mezz := rfl
@[simp] theorem State.emit_lastRead (e : Emit) : (s.emit e).lastRead = s.lastRead := rfl
@[simp] theorem State.emit_free (e : Emit) : (s.emit e).free = s.free := rfl

/-! ### report -/

@[simp] theorem State.report_pending (a b c d : Nat) (w : Word) : (s.report a b c d w).pending = s.pending := rfl
@[simp] theorem State.report_tick (a b c d : Nat) (w : Word) : (s.report a b c d w).tick = s.tick := rfl
@[simp] theorem State.report_glb (a b c d : Nat) (w : Word) : (s.report a b c d w).glb = s.glb := rfl
@[simp] theorem State.report_ports (a b c d : Nat) (w : Word) : (s.report a b c d w).ports = s.ports := rfl
@[simp] theorem State.report_combs (a b c d : Nat) (w : Word) : (s.report a b c d w).combs = s.combs := rfl
@[simp] theorem State.report_pairs (a b c d : Nat) (w : Word) : (s.report a b c d w).pairs = s.pairs := rfl
@[simp] theorem State.report_chans (a b c d : Nat) (w : Word) : (s.report a b c d w).chans = s.chans := rfl
@[simp] theorem State.report_cores (a b c d : Nat) (w : Word) : (s.report a b c d w).cores = s.cores := rfl
@[simp] theorem State.report_csram (a b c d : Nat) (w : Word) : (s.report a b c d w).csram = s.csram := rfl
@[simp] theorem State.report_lmem (a b c d : Nat) (w : Word) : (s.report a b c d w).lmem = s.lmem := rfl
@[simp] theorem State.report_mcs (a b c d : Nat) (w : Word) : (s.report a b c d w).mcs = s.mcs := rfl
@[simp] theorem State.report_qps (a b c d : Nat) (w : Word) : (s.report a b c d w).qps = s.qps := rfl
@[simp] theorem State.report_rules (a b c d : Nat) (w : Word) : (s.report a b c d w).rules = s.rules := rfl
@[simp] theorem State.report_blk (a b c d : Nat) (w : Word) : (s.report a b c d w).blk = s.blk := rfl
@[simp] theorem State.report_rx (a b c d : Nat) (w : Word) : (s.report a b c d w).rx = s.rx := rfl
@[simp] theorem State.report_hq (a b c d : Nat) (w : Word) : (s.report a b c d w).hq = s.hq := rfl
@[simp] theorem State.report_fan (a b c d : Nat) (w : Word) : (s.report a b c d w).fan = s.fan := rfl
@[simp] theorem State.report_psu (a b c d : Nat) (w : Word) : (s.report a b c d w).psu = s.psu := rfl
@[simp] theorem State.report_gauge (a b c d : Nat) (w : Word) : (s.report a b c d w).gauge = s.gauge := rfl
@[simp] theorem State.report_cast (a b c d : Nat) (w : Word) : (s.report a b c d w).cast = s.cast := rfl
@[simp] theorem State.report_mezz (a b c d : Nat) (w : Word) : (s.report a b c d w).mezz = s.mezz := rfl
@[simp] theorem State.report_lastRead (a b c d : Nat) (w : Word) : (s.report a b c d w).lastRead = s.lastRead := rfl
@[simp] theorem State.report_out (a b c d : Nat) (w : Word) : (s.report a b c d w).out = s.out := rfl
@[simp] theorem State.report_free (a b c d : Nat) (w : Word) : (s.report a b c d w).free = s.free := rfl

/-- What `report` adds. -/
@[simp] theorem State.report_reports (a b c d : Nat) (w : Word) :
    (s.report a b c d w).prop.reports = s.prop.reports ++ [⟨⟨a, b⟩, c, d, w, s.now, none⟩] := rfl

/-- What `emit` adds. -/
@[simp] theorem State.emit_out (e : Emit) : (s.emit e).out = e :: s.out := rfl

/-- What `complete` adds. -/
@[simp] theorem State.complete_done (c : Cmd) (st d r : Nat) :
    (s.complete c st d r).qps[c.q.val].done = s.qps[c.q.val].done ++ [⟨c.k, s.now, c.cid, st, d, r, c.noirq⟩] := by
  simp [State.complete]

end Sys2Proof.Machine
end

