-- ==== Sys2Proof/Laws/Needle.lean ====
section
/-! SUPPORT. What beginning and retiring an instruction, a load and a store do, said once for the proofs about Zorath. -/

namespace Sys2Proof.Machine

/-- What a charge of cycles does to the cores (R47, R209). -/
theorem charge_cores (s : State) (k : CoreIx) (n : Nat) : (s.charge k n).cores =
    (s.modCore k fun c => { c with cyc := c.cyc + n, run := c.run.map fun r => { r with cyc := r.cyc + n } }).cores := by
  unfold State.charge
  dsimp only
  split <;> rfl
theorem charge_core (s : State) (k : CoreIx) (n : Nat) : (s.charge k n).cores[k.val] = { s.cores[k.val] with cyc := s.cores[k.val].cyc + n, run := s.cores[k.val].run.map fun r => { r with cyc := r.cyc + n } } := by
  simp [charge_cores]
/-- Writing several registers changes the general registers alone. -/
theorem wrs_frame (l : List (BitVec 5 × Word)) (c : Core) : c.wrs l = { c with g := (c.wrs l).g } := by
  induction l generalizing c with
  | nil => rfl
  | cons x l ih =>
    show (c.wr x.1 x.2).wrs l = _
    rw [ih]; simp only [Core.wrs, List.foldl_cons]
    unfold Core.wr
    split <;> simp
/-- What is due lands in the general registers, what is not yet due or seen comes one nearer, and nothing else of the core differs (R237, R239). -/
theorem begin_frame (c : Core) : c.begin = { c with g := c.begin.g, fly := c.begin.fly, sb := c.begin.sb, fresh := c.begin.fresh } := by
  unfold Core.begin Core.landDue
  simp only []
  rw [wrs_frame]
@[simp] theorem begin_pc (c : Core) : c.begin.pc = c.pc := by rw [begin_frame]
@[simp] theorem begin_slot (c : Core) : c.begin.slot = c.slot := by rw [begin_frame]
@[simp] theorem begin_cr (c : Core) : c.begin.cr = c.cr := by rw [begin_frame]
@[simp] theorem begin_tr (c : Core) : c.begin.tr = c.tr := by rw [begin_frame]
@[simp] theorem begin_run (c : Core) : c.begin.run = c.run := by rw [begin_frame]
@[simp] theorem begin_hold (c : Core) : c.begin.hold = c.hold := by rw [begin_frame]
@[simp] theorem begin_dsram (c : Core) : c.begin.dsram = c.dsram := by rw [begin_frame]
/-- Beginning an instruction takes no store out of the buffer. -/
@[simp] theorem begin_sb_length (c : Core) : c.begin.sb.length = c.sb.length := by simp [Core.begin]
@[simp] theorem begin_rpt (c : Core) : c.begin.rpt = c.rpt := by rw [begin_frame]
@[simp] theorem wr_pc (c : Core) (g v) : (c.wr g v).pc = c.pc := by unfold Core.wr; split <;> rfl
@[simp] theorem wr_run (c : Core) (g v) : (c.wr g v).run = c.run := by unfold Core.wr; split <;> rfl
@[simp] theorem wr_slot (c : Core) (g v) : (c.wr g v).slot = c.slot := by unfold Core.wr; split <;> rfl
@[simp] theorem wr_cr (c : Core) (g v) : (c.wr g v).cr = c.cr := by unfold Core.wr; split <;> rfl
@[simp] theorem wrs_pc (c : Core) (l) : (c.wrs l).pc = c.pc := by rw [wrs_frame]
@[simp] theorem wrs_slot (c : Core) (l) : (c.wrs l).slot = c.slot := by rw [wrs_frame]
@[simp] theorem wrs_cr (c : Core) (l) : (c.wrs l).cr = c.cr := by rw [wrs_frame]
@[simp] theorem later_pc (c : Core) (g v d) : (c.later g v d).pc = c.pc := rfl
@[simp] theorem later_slot (c : Core) (g v d) : (c.later g v d).slot = c.slot := rfl
@[simp] theorem later_cr (c : Core) (g v d) : (c.later g v d).cr = c.cr := rfl
@[simp] theorem later_rd (c : Core) (g v d r) : (c.later g v d).rd r = c.rd r := rfl
/-- The core as an instruction that begins finds it: what was due has landed, and one cycle is charged. -/
theorem begun_core (s : State) (k : CoreIx) : (s.begun k).cores[k.val] = { (s.cores[k.val]).begin with cyc := s.cores[k.val].cyc + 1, run := s.cores[k.val].run.map fun r => { r with cyc := r.cyc + 1 } } := by
  unfold State.begun
  rw [charge_core, State.modCore_same]
  rw [begin_frame]
/-- A core that goes is not at LEND. -/
theorem goes_atEnd {s : State} {k : CoreIx} (h : s.goes k) : (s.cores[k].cr.lact && s.cores[k].pc == s.cores[k].cr.lend) = false := by
  rcases h with ⟨_, h, _⟩
  cases h1 : s.cores[k].cr.lact <;> simp_all
/-- An instruction of a core that goes is its body on the begun state. -/
theorem instr_goes {s : State} {k : CoreIx} (h : s.goes k) (w : Word) (body : State → State) :
    s.instr k w false body = body (s.begun k) := by
  have h1 := goes_atEnd h
  obtain ⟨⟨ha, hr, hp⟩, -, -⟩ := h
  unfold State.instr
  dsimp only
  rw [h1, hr, hp]
  rfl
/-- A flow instruction of a core that goes, outside a delay slot, is its body on the begun state. -/
theorem instr_flow {s : State} {k : CoreIx} (h : s.goes k) (hs : s.cores[k].slot = none) (w : Word) (body : State → State) (fl : Bool) :
    s.instr k w fl body = body (s.begun k) := by
  have h1 := goes_atEnd h
  obtain ⟨⟨ha, hr, hp⟩, -, -⟩ := h
  unfold State.instr
  dsimp only
  rw [h1, hr, hp, hs]
  cases fl <;> rfl
/-- Not at LEND, the loop has no say in where the core goes on. -/
theorem loopEnd_no (c : Core) (l n : Word) (h : ¬(c.cr.lact = true ∧ l = c.cr.lend)) : c.loopEnd l n = (c, n) := by
  unfold Core.loopEnd
  rw [if_neg]
  simpa using h
/-- A branch that leaves the loop does not put the core at LEND. -/
theorem leaveLoop_end (c : Core) (t l : Word) (h : ¬(c.cr.lact = true ∧ l = c.cr.lend)) : ¬((c.leaveLoop t).cr.lact = true ∧ l = (c.leaveLoop t).cr.lend) := by
  unfold Core.leaveLoop
  split
  · simp
  · exact h
/-- Leaving the loop does not move the pc. -/
theorem leaveLoop_pc (c : Core) (t : Word) : (c.leaveLoop t).pc = c.pc := by unfold Core.leaveLoop; split <;> rfl
/-- Leaving the loop changes control registers alone. -/
theorem leaveLoop_frame (c : Core) (t : Word) : c.leaveLoop t = { c with cr := (c.leaveLoop t).cr } := by unfold Core.leaveLoop; split <;> rfl
/-- What retiring does where execution goes on inside the program space, not at LEND: the core goes on. -/
theorem retire_go (u : State) (k : CoreIx) (w : Word) (h1 : ¬(u.cores[k.val].cr.lact = true ∧ u.cores[k.val].pc = u.cores[k.val].cr.lend))
    (h2 : u.cores[k.val].nextPc.toNat ≤ 0xFFFC) : u.retire k w = u.modCore k fun c => c.goOn := by
  unfold State.retire State.retireAt
  simp only [Fin.getElem_fin]
  have key : ∀ c : Core, c = u.cores[k.val] → (u.modCore k fun _ => c.goOn) = u.modCore k fun c => c.goOn := by
    rintro c rfl; rfl
  rw [← key _ rfl]
  generalize u.cores[k.val] = c at *
  have lt : ∀ n : Word, n.toNat ≤ 0xFFFC → ¬ (0xFFFC < n) := by intro n hn hh; bv_omega
  rcases hs : c.slot with _ | ⟨b, t, taken⟩
  · have hn : c.nextPc = c.pc + 4 := by simp [Core.nextPc, hs]
    dsimp only
    rw [loopEnd_no _ _ _ (by simpa using h1), Option.getD_none, if_neg (lt _ (hn ▸ h2))]
    simp [Core.goOn, Core.nextPc, hs]
  · have hn : c.nextPc = t := by simp [Core.nextPc, hs]
    cases taken
    · dsimp only
      rw [loopEnd_no _ _ _ (by simpa using h1), if_neg (lt _ (hn ▸ h2))]
      simp [Core.goOn, Core.nextPc, hs]
    · have := leaveLoop_end c t c.pc h1
      simp only [if_true]
      rw [loopEnd_no _ _ _ (by simpa using this), if_neg (lt _ (hn ▸ h2))]
      simp [Core.goOn, Core.nextPc, hs]
/-- Two updates of one core are one. -/
theorem modCore_modCore (s : State) (k : CoreIx) (f g : Core → Core) : (s.modCore k f).modCore k g = s.modCore k fun c => g (f c) := by
  simp [State.modCore]
/-- An instruction whose effect on its core keeps the pc, the slot and the loop retires into `State.did`. -/
theorem did_eq {s : State} {k : CoreIx} (h : s.goes k) (w : Word) (f : Core → Core) (u : State) (hu : u = (s.begun k).modCore k f)
    (hpc : (f (s.begun k).cores[k.val]).pc = s.cores[k.val].pc) (hsl : (f (s.begun k).cores[k.val]).slot = s.cores[k.val].slot)
    (hlact : (f (s.begun k).cores[k.val]).cr.lact = s.cores[k.val].cr.lact) (hlend : (f (s.begun k).cores[k.val]).cr.lend = s.cores[k.val].cr.lend) :
    u.retire k w = s.did k f := by
  subst hu
  obtain ⟨-, h1, h2⟩ := h
  rw [retire_go]
  · rw [modCore_modCore]; rfl
  · simpa [hpc, hlact, hlend] using h1
  · simpa [Core.nextPc, hpc, hsl] using h2
/-- A command of a module whose supplies stand has its effect. -/
theorem live_alive {s : State} (h : s.alive) (f : State → State) : live s f = .next (f s) := by simp [live, h]
/-- A command that may end conditions of Reflex rules has its effect, and the rules settle. -/
theorem liveR_alive {s : State} (h : s.alive) (f : State → State) : liveR s f = .next (f s).settle := by simp [liveR, h]
@[simp] theorem begun_rd (s : State) (k : CoreIx) (r : BitVec 5) : (s.begun k).cores[k.val].rd r = (s.seen k).rd r := by
  rw [begun_core]; rfl
/-- A plain instruction with its result at once. -/
theorem alu_goes {s : State} {k : CoreIx} (h : s.goes k) (w : Word) (gd : BitVec 5) (f : Core → Word) :
    s.alu k w gd f = s.wrote k gd (f (s.begun k).cores[k.val]) := by
  unfold State.alu
  rw [instr_goes h]
  have := did_eq h w (fun c => c.wr gd (f (s.begun k).cores[k.val])) _ rfl (by simp [begun_core]) (by simp [begun_core]) (by simp [begun_core]) (by simp [begun_core])
  rw [State.wrote, ← this]
  unfold State.modCore; simp
/-- A plain instruction with its result at a distance (R235). -/
theorem slow_goes {s : State} {k : CoreIx} (h : s.goes k) (w : Word) (gd : BitVec 5) (d : Nat) (f : Core → Word) :
    s.slow k w gd d f = s.willWrite k gd (f (s.begun k).cores[k.val]) d := by
  unfold State.slow
  rw [instr_goes h]
  have := did_eq h w (fun c => c.later gd (f (s.begun k).cores[k.val]) d) _ rfl (by simp [begun_core]) (by simp [begun_core]) (by simp [begun_core]) (by simp [begun_core])
  rw [State.willWrite, ← this]
  unfold State.modCore; simp
theorem seen_eq (s : State) (k : CoreIx) : s.seen k = s.cores[k.val].begin := rfl
@[simp] theorem begun_inScout (s : State) (k : CoreIx) : (s.begun k).cores[k.val].inScout = s.cores[k.val].inScout := by
  rw [begun_core]; cases h : s.cores[k.val].run <;> simp [Core.inScout, h]
@[simp] theorem begun_cr (s : State) (k : CoreIx) : (s.begun k).cores[k.val].cr = s.cores[k.val].cr := by rw [begun_core]; simp
@[simp] theorem begun_ea (s : State) (k : CoreIx) (g i) : (s.begun k).cores[k.val].ea g i = (s.seen k).ea g i := by rw [begun_core]; rfl
@[simp] theorem begun_upd (s : State) (k : CoreIx) (g i) : (s.begun k).cores[k.val].updated g i = (s.seen k).updated g i := by rw [begun_core]; rfl
theorem begun_slot (s : State) (k : CoreIx) : (s.begun k).cores[k.val].slot = s.cores[k.val].slot := by rw [begun_core]; simp
theorem begun_pc (s : State) (k : CoreIx) : (s.begun k).cores[k.val].pc = s.cores[k.val].pc := by rw [begun_core]; simp
/-- A core outside a Scout run has no Scout lane. -/
theorem scoutLane_of {s : State} {k : CoreIx} (h : s.cores[k.val].inScout = false) : (s.begun k).scoutLane k = false := by
  simp [State.scoutLane, h]
theorem loc_data {m : Nat} {a : Nat} (h : a < 0x20000) : locOf m a = .data a := by simp [locOf, h]
/-- What a core outside a Scout run reads of data SRAM: what its own loads see (R216, R239). -/
theorem coreBytes_data {s : State} {k : CoreIx} (hs : s.cores[k.val].inScout = false) (a n : Nat) :
    (s.begun k).coreBytes k (.data a) n = (s.seen k).dataBytes a n := by
  unfold State.coreBytes
  simp only [Fin.getElem_fin, begun_inScout, hs]
  rw [begun_core]
  cases hr : s.cores[k.val].run with
  | none => simp [seen_eq, Core.dataBytes]
  | some r =>
    have : r.scout = false := by simpa [Core.inScout, hr] using hs
    simp [this, seen_eq, Core.dataBytes]
/-- Laying a store over bytes keeps their number. -/
@[simp] theorem overlay_length (a : Nat) (bs : List Byte) (st : Nat × List Byte) : (overlay a bs st).length = bs.length := by simp [overlay]
theorem foldl_overlay_length (a : Nat) (l : List (Nat × List Byte)) (bs : List Byte) : (l.foldl (overlay a) bs).length = bs.length := by
  induction l generalizing bs with
  | nil => rfl
  | cons x l ih => simp [ih]
/-- A read gives as many bytes as it names. -/
theorem read_length (m : Mem) (a n : Nat) : (Memory.read m a n).length = n := by
  induction n generalizing a with
  | zero => rfl
  | succ n ih => simp [Memory.read, ih]
/-- An aligned load from data SRAM does not trap. -/
theorem loadTrap_data {s : State} {k : CoreIx} (hs : s.cores[k.val].inScout = false) (a : Word) (n : Nat) (wf : Bool) (h1 : a.toNat < 0x20000) (h2 : a.toNat % n = 0) :
    (s.begun k).loadTrap k a n wf = 0 := by
  unfold State.loadTrap
  simp [loc_data h1, scoutLane_of hs, h2]
/-- A load from data SRAM: its value lands after three instructions (R235). -/
theorem load_data {s : State} {k : CoreIx} (h : s.goes k) (hs : s.cores[k.val].inScout = false)
    (w : Word) (gd : BitVec 5) (a : Word) (n : Nat) (sg wf : Bool) (base : Option (BitVec 5 × Word)) (h1 : a.toNat < 0x20000) (h2 : a.toNat % n = 0) :
    (s.begun k).load k w gd a n sg wf base = s.did k fun c => (c.wrs base.toList).later gd (loadVal ((s.seen k).dataBytes a.toNat n) sg) 3 := by
  unfold State.load
  simp only [loadTrap_data hs a n wf h1 h2, loc_data h1, coreBytes_data hs]
  exact did_eq h w _ _ rfl (by simp [begun_core]) (by simp [begun_core]) (by simp [begun_core]) (by simp [begun_core])
/-- A little-endian number is below 256 to its length. -/
theorem ofLeBytes_lt (l : List Byte) : ofLeBytes l < 2 ^ (8 * l.length) := by
  induction l with
  | nil => simp [ofLeBytes]
  | cons b l ih => simp only [ofLeBytes, List.length_cons]; have := b.isLt; rw [Nat.mul_add, Nat.pow_add]; omega
/-- A load reads as many bytes of data SRAM as it names. -/
@[simp] theorem dataBytes_length (c : Core) (a n : Nat) : (c.dataBytes a n).length = n := by
  rw [Core.dataBytes]; simp only [foldl_overlay_length, read_length]
theorem loadVal4 (l : List Byte) : loadVal l false = BitVec.ofNat 32 (ofLeBytes l) := by
  simp [loadVal, toW]
theorem loadValU (l : List Byte) (b : Nat) (hb : b = 8 * l.length) : loadVal l false = (BitVec.ofNat b (ofLeBytes l)).setWidth 32 := by
  have := ofLeBytes_lt l
  rw [← hb] at this
  simp [loadVal, toW]
  apply BitVec.eq_of_toNat_eq
  simp [Nat.mod_eq_of_lt this]
theorem run_scout_none {s : State} {k : CoreIx} (hs : s.cores[k.val].inScout = false) : ∀ n, (s.begun k).lane k ≠ some (n, true) := by
  intro n h
  have hb : (s.begun k).cores[k.val].inScout = false := by simpa using hs
  unfold State.lane at h
  unfold Core.inScout at hb
  simp only [Fin.getElem_fin] at h
  cases hr : (s.begun k).cores[k.val].run <;> simp_all
theorem isStage_no {a : Nat} (h : ∀ x, locAt a ≠ .port x) : isStageKey a = false := by
  unfold isStageKey
  split
  · rename_i x hx; exact absurd hx (h x)
  · rfl
/-- Retiring at the core's own pc, with no jump and no slot to open, is plain retiring. -/
theorem retireAt_pc (u : State) (k : CoreIx) (w l : Word) (h : l = u.cores[k.val].pc) : u.retireAt k w l none none = u.retire k w := by
  subst h; rfl
/-- A store is posted (R216). -/
theorem store_ok {s : State} {k : CoreIx} (h : s.goes k) (hs : s.cores[k.val].inScout = false) (hb : s.cores[k.val].sb.length < 8)
    (w a : Word) (n : Nat) (v : Word) (regs : List (BitVec 5 × Word)) (wf : Bool) (h1 : a.toNat % n = 0)
    (h2 : a.toNat < 0x28000 ∨ (0x40000000 ≤ a.toNat ∧ a.toNat < 0x80000000)) :
    (s.begun k).store k w a n v regs none wf = s.did k fun d => (d.post (posted (if a.toNat < 0x28000 then a.toNat else 2 ^ 32 + s.cores[k.val].cr.lmw * 2 ^ 28 + (a.toNat - 0x40000000)) (leBytes n v.toNat))).wrs regs := by
  have hl : locOf s.cores[k.val].cr.lmw a.toNat ≠ .none := by unfold locOf; split_ifs <;> first | omega | simp
  have hp : ∀ x, locOf s.cores[k.val].cr.lmw a.toNat ≠ .port x := by intro x; unfold locOf; split_ifs <;> first | omega | simp
  have hk : (locOf s.cores[k.val].cr.lmw a.toNat).key = if a.toNat < 0x28000 then a.toNat else 2 ^ 32 + s.cores[k.val].cr.lmw * 2 ^ 28 + (a.toNat - 0x40000000) := by
    unfold locOf; split_ifs <;> simp [Loc.key] <;> omega
  have hka : isStageKey (locOf s.cores[k.val].cr.lmw a.toNat).key = false := by
    apply isStage_no
    intro x
    rw [hk]; unfold locAt locOf
    split_ifs <;> first | omega | simp
  have ht : (s.begun k).storeTrap k a n wf = 0 := by
    unfold State.storeTrap
    simp only [Fin.getElem_fin, begun_cr]
    simp only [scoutLane_of hs, h1]
    generalize locOf s.cores[k.val].cr.lmw a.toNat = l at *
    cases l <;> simp_all
  have hu : (s.begun k).untimedStage k (locOf s.cores[k.val].cr.lmw a.toNat).key = false := by
    unfold State.untimedStage; split <;> simp [hka]
  have hful : (s.begun k).cores[k.val].full = false := by rw [begun_core]; simp [Core.full]; omega
  unfold State.store
  simp only [Fin.getElem_fin, begun_cr]
  rw [ht, hu, hk]
  have hn := run_scout_none hs
  have key : (s.begun k).postStore k w (if a.toNat < 0x28000 then a.toNat else 2 ^ 32 + s.cores[k.val].cr.lmw * 2 ^ 28 + (a.toNat - 0x40000000)) (leBytes n v.toNat) regs none
     = s.did k fun d => (d.post (posted (if a.toNat < 0x28000 then a.toNat else 2 ^ 32 + s.cores[k.val].cr.lmw * 2 ^ 28 + (a.toNat - 0x40000000)) (leBytes n v.toNat))).wrs regs := by
    unfold State.postStore
    simp only [Fin.getElem_fin]
    rw [hful]
    rw [if_neg (by simp), ← did_eq h w _ _ rfl (by simp [begun_core, Core.post]) (by simp [begun_core, Core.post]) (by simp [begun_core, Core.post]) (by simp [begun_core, Core.post])]
    exact retireAt_pc _ k w _ (by simp [begun_core, Core.post])
  simp only [ne_eq, not_true_eq_false, if_false, Bool.false_eq_true]
  rw [← key]
theorem key_data {a l : Nat} : (if a < 0x28000 then a else 2 ^ 32 + l * 2 ^ 28 + (a - 0x40000000)) < 0x20000 ↔ a < 0x20000 := by split_ifs <;> omega
theorem goes_end' {s : State} {k : CoreIx} (h : s.goes k) : ¬((s.begun k).cores[k.val].cr.lact = true ∧ (s.begun k).cores[k.val].pc = (s.begun k).cores[k.val].cr.lend) := by
  rw [begun_cr, begun_pc]; exact h.2.1
theorem not_gt {n : Word} (hn : n.toNat ≤ 0xFFFC) : ¬ (0xFFFC < n) := by intro hh; bv_omega
/-- Outside a delay slot and not at LEND, retiring goes to the jump target or to the next word, and opens the slot given. -/
theorem retireAt_none (u : State) (k : CoreIx) (w : Word) (jump : Option Word) (slot : Option (Word × Word × Bool)) (hs : u.cores[k.val].slot = none)
    (h1 : ¬(u.cores[k.val].cr.lact = true ∧ u.cores[k.val].pc = u.cores[k.val].cr.lend)) (h2 : (jump.getD (u.cores[k.val].pc + 4)).toNat ≤ 0xFFFC) :
    u.retireAt k w u.cores[k.val].pc jump slot = u.modCore k fun c => { c with slot := slot, pc := jump.getD (u.cores[k.val].pc + 4) } := by
  have key : ∀ (c : Core) (f : Core → Core), c = u.cores[k.val] → (u.modCore k fun _ => f c) = u.modCore k f := by
    rintro c f rfl; rfl
  unfold State.retireAt
  simp only [Fin.getElem_fin]
  rw [hs]
  dsimp only
  rw [loopEnd_no _ _ _ (by simpa using h1), if_neg (not_gt h2)]
  rfl
/-- A charge changes cores and channels alone. -/
theorem charge_fields (s : State) (k n) : (s.charge k n) = { s with cores := (s.charge k n).cores, chans := (s.charge k n).chans } := by
  unfold State.charge; dsimp only; split <;> rfl
/-- Beginning an instruction changes cores and channels alone. -/
theorem begun_fields (s : State) (k) : s.begun k = { s with cores := (s.begun k).cores, chans := (s.begun k).chans } := by
  unfold State.begun; rw [charge_fields]; rfl
theorem begun_cx (s : State) (k : CoreIx) (n : ChIx) : (s.begun k).chans[n.val].cx = s.chans[n.val].cx := by
  unfold State.begun State.charge
  dsimp only
  split
  · rename_i r hr
    by_cases h : n = r.ch
    · subst h; simp
    · rw [State.modChan_ne _ _ _ _ h]; rfl
  · rfl
theorem begun_tr (s : State) (k : CoreIx) : (s.begun k).cores[k.val].tr = s.cores[k.val].tr := by rw [begun_core]; simp
theorem begun_run (s : State) (k : CoreIx) : (s.begun k).cores[k.val].run = s.cores[k.val].run.map fun r => { r with cyc := r.cyc + 1 } := by rw [begun_core]
/-- Writing one register and retiring is `State.wrote`. -/
theorem wr_did {s : State} {k : CoreIx} (h : s.goes k) (w gd v) : ((s.begun k).modCore k fun c => c.wr gd v).retire k w = s.wrote k gd v :=
  did_eq h w _ _ rfl (by simp [begun_core]) (by simp [begun_core]) (by simp [begun_core]) (by simp [begun_core])

end Sys2Proof.Machine
end

