-- ==== Sys2Proof/Laws/Ops.lean ====
section
/-! SUPPORT. The spec lemmas of the shared operations of Machine/Ops.lean: for each, everything that it can change, and the memories' canonical
form through those that write memory. -/

namespace Sys2Proof.Machine

/-! ### Folds -/

/-- What every application of f keeps, a fold over a list keeps. -/
theorem State.each_keeps {α : Type} (P : State → Prop) (f : α → State → State) (h : ∀ x s, P s → P (f x s)) (xs : List α) (s : State) (hs : P s) : P (s.each xs f) := by
  induction xs generalizing s with
  | nil => exact hs
  | cons x xs ih => exact ih (f x s) (h x s hs)

/-- A fold over an empty list and over a list with a first element. -/
theorem State.each_nil {α : Type} (s : State) (f : α → State → State) : s.each [] f = s := rfl
theorem State.each_cons {α : Type} (s : State) (x : α) (xs : List α) (f : α → State → State) : s.each (x :: xs) f = (f x s).each xs f := rfl

/-- Where no host reset is at work, nothing is muted (R362). -/
@[simp] theorem State.muted_false (s : State) (f : State → State) : s.muted false f = f s := rfl

/-! ### Reports and counters -/

/-- A report waits behind the others; nothing else differs (R411, R412). -/
theorem State.report_eq (s : State) (ut ix cause detail : Nat) (data : Word) : s.report ut ix cause detail data =
    { s with prop := { s.prop with reports := s.prop.reports ++ [⟨⟨ut, ix⟩, cause, detail, data, s.now, none⟩] } } := rfl

/-- A counter's notice is a report, at the one count below the maximum (R403). -/
theorem State.cntSat_eq (s : State) (ut ix a old : Nat) : s.cntSat ut ix a old = s ∨ (old = 0xFFFFFFFE ∧ s.cntSat ut ix a old = s.report ut ix 0xA1 0 (toW a)) := by
  unfold State.cntSat; split
  · exact .inr ⟨‹_›, rfl⟩
  · exact .inl rfl

/-- A counter's notice changes Propolis's reports alone. -/
theorem State.cntSat_frame (s : State) (ut ix a old : Nat) : s.cntSat ut ix a old = { s with prop := { s.prop with reports := (s.cntSat ut ix a old).prop.reports } } := by
  rcases State.cntSat_eq s ut ix a old with h | ⟨-, h⟩
  · rw [h]
  · rw [h]; rfl

theorem State.cntSat_ports (s : State) (ut ix a old : Nat) : (s.cntSat ut ix a old).ports = s.ports := by rw [State.cntSat_frame]

/-! ### Event queues -/

/-- A push never holds more than 64 records (R109, R395). -/
theorem PortEvq.push_held (e : PortEvq) (code : Nat) (d : Word) (ts : Nat) (h : e.unread.length + e.ret.length ≤ 64) :
    (e.push code d ts).unread.length + (e.push code d ts).ret.length ≤ 64 := by
  unfold PortEvq.push
  dsimp only
  split
  · exact h
  · split
    · simp; omega
    · simp; omega

/-- A pop keeps the records held (R395). -/
theorem PortEvq.pop_held (e : PortEvq) : e.pop.2.unread.length + e.pop.2.ret.length = e.unread.length + e.ret.length := by
  unfold PortEvq.pop
  split
  · rfl
  · rename_i r rs h; simp [h]; omega

/-- Moving the read pointer back keeps the records held, in their order (R396). -/
theorem PortEvq.back_held (e : PortEvq) (n : Nat) : (e.back n).ret ++ (e.back n).unread = e.ret ++ e.unread := by
  simp [PortEvq.back, ← List.append_assoc]

/-- An event record changes its port's queue and status, and Propolis's reports (R108, R111). -/
theorem State.postEv_frame (s : State) (p : PortIx) (code : Nat) (d : Word) (ts : Nat) :
    s.postEv p code d ts = { s with ports := (s.postEv p code d ts).ports, prop := { s.prop with reports := (s.postEv p code d ts).prop.reports } } := by
  unfold State.postEv; dsimp only
  split
  · rfl
  · rw [State.cntSat_frame]; rfl

/-- Another port's registers and queue stay. -/
theorem State.postEv_other (s : State) (p q : PortIx) (code : Nat) (d : Word) (ts : Nat) (h : q ≠ p) : (s.postEv p code d ts).ports[q.val] = s.ports[q.val] := by
  unfold State.postEv; dsimp only
  split
  · exact State.modPort_ne _ _ _ _ h
  · simp only [State.cntSat_ports]; exact State.modPort_ne _ _ _ _ h

/-- A Reflex record changes the REFLEX queue, its counters and Propolis's reports (R384). -/
theorem State.postRx_frame (s : State) (rule code tgt src ts : Nat) : s.postRx rule code tgt src ts =
    let t := s.postRx rule code tgt src ts
    { s with rx := { s.rx with seq := t.rx.seq, evq := t.rx.evq, lost := t.rx.lost, ovf := t.rx.ovf }
             prop := { s.prop with reports := t.prop.reports } } := by
  unfold State.postRx; dsimp only
  split
  · rw [State.cntSat_frame]
  · rfl

/-! ### What leaves the module -/

/-- What leaves the module is recorded, newest first. -/
theorem State.emit_eq (s : State) (e : Emit) : s.emit e = { s with out := e :: s.out } := rfl

/-- A PME cause sets PME_Status and sends PM_PME, or changes nothing (R350). -/
theorem State.pmeDue_eq (s : State) : s.pmeDue = s ∨ s.pmeDue = { s with hq := { s.hq with pme := true }, out := .pme :: s.out } := by
  unfold State.pmeDue; split
  · exact .inr rfl
  · exact .inl rfl

/-- A host write is discarded, held or issued (R350, R362, R440). -/
theorem State.hostWrite_eq (s : State) (a : Nat) (b : List Byte) :
    (s.hq.issues = false → s.hostWrite a b = s) ∧
    (s.hq.issues = true → s.hq.d3 = false → s.hostWrite a b = { s with out := .hostWrite a b :: s.out }) ∧
    (s.hq.issues = true → s.hq.d3 = true → s.hostWrite a b = { s with hq := { s.hq with held := s.hq.held ++ [HeldWrite.data a b] } }.pmeDue) := by
  refine ⟨fun h => ?_, fun h h' => ?_, fun h h' => ?_⟩ <;> simp [State.hostWrite, State.emit, *]

/-- A host write changes the writes that wait, PME_Status and what left, and nothing else. -/
theorem State.hostWrite_frame (s : State) (a : Nat) (b : List Byte) :
    s.hostWrite a b = { s with hq := { s.hq with held := (s.hostWrite a b).hq.held, pme := (s.hostWrite a b).hq.pme }, out := (s.hostWrite a b).out } := by
  unfold State.hostWrite; split
  · rfl
  · split
    · rcases State.pmeDue_eq { s with hq := { s.hq with held := s.hq.held ++ [HeldWrite.data a b] } } with h | h <;> rw [h]
    · rfl

/-- Sending a vector's message changes the vectors, PME_Status and what left (R347, R348, R350). -/
theorem State.sendVec_frame (s : State) (v : VecIx) :
    s.sendVec v = { s with hq := { s.hq with vecs := (s.sendVec v).hq.vecs, pme := (s.sendVec v).hq.pme }, out := (s.sendVec v).out } := by
  unfold State.sendVec; dsimp only
  split
  · rfl
  · split
    · rfl
    · split
      · generalize hu : State.modVec (State.modVec s v _) v _ = u
        have e : u = { s with hq := { s.hq with vecs := u.hq.vecs } } := by subst hu; rfl
        rcases State.pmeDue_eq u with h | h <;> rw [h, e]
      · rfl

/-- A request on a vector changes the vectors, PME_Status and what left (R346, R347). -/
theorem State.reqVec_frame (s : State) (v : VecIx) :
    s.reqVec v = { s with hq := { s.hq with vecs := (s.reqVec v).hq.vecs, pme := (s.reqVec v).hq.pme }, out := (s.reqVec v).out } := by
  unfold State.reqVec; dsimp only
  split
  · exact State.sendVec_frame s v
  · split
    · exact State.sendVec_frame s v
    · rfl

/-! ### Local memory -/

/-- What a write takes from the cores is reservations alone (R227). -/
theorem State.clearRsv_frame (s : State) (by_ : Option CoreIx) (hit : CoreIx → Nat → Nat → Bool) : s.clearRsv by_ hit = { s with cores := (s.clearRsv by_ hit).cores } := rfl

/-- A core keeps everything but its reservation. -/
theorem State.clearRsv_core (s : State) (by_ : Option CoreIx) (hit : CoreIx → Nat → Nat → Bool) (k : CoreIx) :
    (s.clearRsv by_ hit).cores[k.val] = { s.cores[k.val] with cr := { s.cores[k.val].cr with rsv := (s.clearRsv by_ hit).cores[k.val].cr.rsv } } := by
  have e : ∀ c : Core, c = { c with cr := { c.cr with rsv := c.cr.rsv } } := fun _ => rfl
  simp only [State.clearRsv, Vector.getElem_mapFinIdx]
  split
  · split <;> rfl
  · rfl

/-- A write of local memory changes it, and reservations (R226, R227). -/
theorem State.localWrite_frame (s : State) (by_ : Option CoreIx) (a : Nat) (b : List Byte) :
    s.localWrite by_ a b = { s with lmem := Memory.write s.lmem a b, cores := (s.localWrite by_ a b).cores } := rfl

/-- It keeps every core's memories. -/
theorem State.localWrite_core (s : State) (by_ : Option CoreIx) (a : Nat) (b : List Byte) (k : CoreIx) :
    (s.localWrite by_ a b).cores[k.val].isram = s.cores[k.val].isram ∧ (s.localWrite by_ a b).cores[k.val].dsram = s.cores[k.val].dsram := by
  unfold State.localWrite
  rw [State.clearRsv_core]
  exact ⟨rfl, rfl⟩

/-- Two states with the same memories are canonical together. -/
theorem State.canonical_of {s t : State} (h : s.canonical) (hl : t.lmem = s.lmem) (hc : t.csram = s.csram)
    (hk : ∀ k : CoreIx, t.cores[k.val].isram = s.cores[k.val].isram ∧ t.cores[k.val].dsram = s.cores[k.val].dsram)
    (ha : t.cast.slotA = s.cast.slotA) (hb : t.cast.slotB = s.cast.slotB) (hn : t.cast.before = s.cast.before) : t.canonical := by
  obtain ⟨h1, h2, h3, h4, h5, h6⟩ := h
  refine ⟨hl ▸ h1, hc ▸ h2, fun k => ?_, ha ▸ h4, hb ▸ h5, hn ▸ h6⟩
  simp only [Fin.getElem_fin, (hk k).1, (hk k).2]
  exact h3 k

/-- A write of local memory keeps the canonical forms. -/
theorem State.localWrite_canonical {s : State} (h : s.canonical) (by_ : Option CoreIx) (a : Nat) (b : List Byte) : (s.localWrite by_ a b).canonical := by
  obtain ⟨h1, h2, h3, h4, h5, h6⟩ := h
  refine ⟨Memory.write_wf _ _ _ h1, h2, fun k => ?_, h4, h5, h6⟩
  have := State.localWrite_core s by_ a b k
  simp only [Fin.getElem_fin, this.1, this.2]
  exact h3 k

/-- A write through a channel address goes to the host or to local memory (R169). -/
theorem State.chanWrite_eq (s : State) (a : Nat) (b : List Byte) :
    (2 ^ 63 ≤ a → s.chanWrite a b = s.hostWrite (a - 2 ^ 63) b) ∧ (a < 2 ^ 63 → s.chanWrite a b = s.localWrite none a b) := by
  constructor <;> intro h
  · rw [State.chanWrite, if_pos (by simpa [isHost] using h)]
  · rw [State.chanWrite, if_neg (by simpa [isHost] using h)]

/-! ### Completions -/

/-- A completion stands in its queue's backlog. -/
theorem State.complete_ended (s : State) (c : Cmd) (st d r : Nat) : (s.complete c st d r).ended c st d r := by
  simp [State.ended, State.complete, State.modQp, State.now]

/-- A completion changes its queue's backlog alone (R344). -/
theorem State.complete_frame (s : State) (c : Cmd) (st d r : Nat) : s.complete c st d r = { s with qps := (s.complete c st d r).qps } := rfl

theorem State.complete_other (s : State) (c : Cmd) (st d r : Nat) (q : QpIx) (h : q ≠ c.q) : (s.complete c st d r).qps[q.val] = s.qps[q.val] :=
  State.modQp_ne _ _ _ _ h

/-! ### Free values and crossings -/

/-- A free value is drawn by its place in the order of draws; only that order moves (log entry 9). -/
theorem State.draw_eq (s : State) : s.draw = (Config.freeWord s.free, { s with free := s.free + 1 }) := rfl

/-- A pulse changes its crossing's state, the order of draws and Propolis's reports (R405 to R407). -/
theorem State.pulse_frame (s : State) (x : Fin 21) : s.pulse x =
    { s with glb := { s.glb with xbusy := (s.pulse x).glb.xbusy, xovr := (s.pulse x).glb.xovr, xlost := (s.pulse x).glb.xlost }
             free := s.free + 1, prop := { s.prop with reports := (s.pulse x).prop.reports } } := by
  unfold State.pulse State.draw
  dsimp only
  repeat (first | rfl | split)

/-! ### Time (R49, log entry 5) -/

/-- What reaching an offset can do: the offset and the time move, and neither goes back. -/
theorem Tick.reach_eq (t : Tick) (x : Nat) : t.reach x = { t with ofs := (t.reach x).ofs, now := (t.reach x).now } ∧ t.ofs ≤ (t.reach x).ofs ∧
    t.now ≤ (t.reach x).now := ⟨rfl, Nat.le_max_left _ _, Nat.le_max_left _ _⟩

@[simp] theorem Tick.pass_phase (t : Tick) (p : Phase) : (t.pass p).phase = p := rfl

/-- An idle period moves the tick alone. -/
theorem State.period_frame (s : State) : s.period = { s with tick := s.period.tick } := by unfold State.period; split <;> rfl

/-- An idle period never takes the time back. -/
theorem State.period_now (s : State) : s.now ≤ s.period.now := by
  unfold State.period; split
  · exact Nat.le_refl _
  · exact (Tick.reach_eq _ _).2.2

/-- A TDC stamp moves the tick alone. -/
theorem State.tdc_frame (s : State) (t : BitVec 4) : s.tdc t = { s with tick := (s.tdc t).tick } := by unfold State.tdc; split <;> rfl

/-- A point of the frame that is not due changes nothing. -/
theorem State.atPoint_other (s : State) (p : Phase) (f : State → State) (h : s.tick.phase ≠ p.before) : s.atPoint p f = s := by
  simp [State.atPoint, h]

/-- A point of the frame that is due is passed, and then has its effect. -/
theorem State.atPoint_due (s : State) (p : Phase) (f : State → State) (ht : s.glb.tick = true) (h : s.tick.phase = p.before) :
    s.atPoint p f = f { s with tick := s.tick.pass p } := by simp [State.atPoint, ht, h]

end Sys2Proof.Machine
end

