-- ==== Sys2Proof/Tests/Slice0.lean ====
section
/-! SUPPORT. Tests: the WellFormed smoke tests, a witness for the hypotheses of every statement, and single commands on values of the manual's examples. -/

namespace Sys2Proof.Machine

/-! ### Zorath -/

/-- A core that runs a routine of channel 5, at pc 0x200. -/
def tCore (f : Core → Core) : State :=
  State.reset.modCore 3 fun c => f { c with run := some ⟨5, false, false, 0, false, 0⟩, pc := 0x200 }

/-- Witness of AddAndLogicResults, ShiftResults, CompareAndSaturateResults and MultiplyResults. -/
theorem wit_arithmetic : (tCore id).goes 3 ∧ (tCore fun c => { c with slot := some (0x1FC, 0xFFFC, false) }).goes 3 := by decide

/-- Witness of WindowedAddresses: no window, a window with and without bit 6, g0 and g24 beside the windows. -/
theorem wit_windows : let w (v : Word) : Core := { cr := { mwCfg := Vector.replicate 4 v } }
    bit (w 0x05).cr.mwCfg[(3 : Fin 4)] 7 = false ∧ (bit (w 0x85).cr.mwCfg[(0 : Fin 4)] 7 = true ∧ bit (w 0x85).cr.mwCfg[(0 : Fin 4)] 6 = false) ∧
    (0 : BitVec 5).toNat < 20 ∧ 23 < (24 : BitVec 5).toNat := by decide

/-- Witness of LoadsFromDataSram and AtomicsInDataSram: the last word, half-word and byte of data SRAM, with a store still fresh. -/
theorem wit_data_loads : let s (a : Word) := tCore fun c => { c.wr 5 a with fresh := [⟨0, [1], [2], 2⟩], cr := { c.cr with rsv := some (0xFFF, 2) } }
    ((s 0x1FFFC).goes 3 ∧ (s 0x1FFFC).cores[(3 : CoreIx)].inScout = false ) ∧
    (((s 0x1FFFC).seen 3).ea 5 0).toNat = 0x1FFFC ∧ (((s 0x1FFFE).seen 3).ea 5 0).toNat = 0x1FFFE ∧ (((s 0x1FFFF).seen 3).ea 5 0).toNat = 0x1FFFF ∧
    ((s 0x1FFFC).seen 3).rd 5 = 0x1FFFC ∧ (5 : BitVec 5) ≠ 6 ∧
    ((s 0x1FFFC).seen 3).cr.rsv = some (0x1FFFC / 32, 2) ∧ ((s 0x1000).seen 3).cr.rsv ≠ some (0x1000 / 32, 2) := by decide

/-- Witness of FarLoadsHoldTheCore and of the far stores of StoresArePosted: the ends of cluster SRAM and of the local-memory window. -/
theorem wit_far : let s (a : Word) := tCore fun c => c.wr 5 a
    ((s 0).goes 3 ∧ (s 0).cores[(3 : CoreIx)].inScout = false ∧ (s 0).cores[(3 : CoreIx)].sb.length < 8) ∧
    ((s 0x20000).seen 3).ea 5 0 = 0x20000 ∧ ((s 0x27FFC).seen 3).ea 5 0 = 0x27FFC ∧ ((s 0x40000000).seen 3).rd 5 = 0x40000000 ∧
    ((s 0x7FFFFFFE).seen 3).rd 5 = 0x7FFFFFFE := by decide

/-- Witness of LoadReturnCompletes: a held load from local memory and one from cluster SRAM. -/
theorem wit_load_return : let s (a : Word) := tCore fun c => { c with hold := some (.load 0 7 a 4 false none none) }
    ((s 0x40000000).alive ∧ (s 0x40000000).cores[(3 : CoreIx)].hold = some (.load 0 7 0x40000000 4 false none none)) ∧
    locOf (s 0x40000000).cores[(3 : CoreIx)].cr.lmw 0x40000000 = .lmem 0 ∧ locOf (s 0x20000).cores[(3 : CoreIx)].cr.lmw 0x20000 = .cluster 0 := by decide

/-- Witness of StoreArrivalWritesItsBytes: the second buffered store, the first being of another region. -/
theorem wit_store_arrival : let s := tCore fun c => { c with sb := [⟨0x20000, [1, 2], 0⟩, ⟨2 ^ 32, [3], 0⟩] }
    s.alive ∧ s.cores[(3 : CoreIx)].hold = none ∧ s.cores[(3 : CoreIx)].sb[1]? = some ⟨2 ^ 32, [3], 0⟩ ∧ locAt (2 ^ 32) = .lmem 0 ∧ locAt 0x20000 = .cluster 0 ∧
    (∀ x ∈ s.cores[(3 : CoreIx)].sb.take 1, (locAt x.addr).sameRegion (locAt (2 ^ 32)) = false) := by decide

/-- The memories of the states of these witnesses are in canonical form. -/
theorem wit_canonical : State.reset.canonical := by
  exact ⟨rfl, by decide, by decide, rfl, rfl, fun _ h => nomatch h⟩

/-- Witness of WhatLoadsSee: the last word of data SRAM, with a store that waits at its distance and before it, and one that has arrived unseen. -/
theorem wit_loads_see : let b : List Byte := [1, 2, 3, 4]
    b.length = 4 ∧ 0x1FFFC + 4 ≤ 0x20000 ∧ (∀ f ∈ [(⟨0x20000, b, 0⟩ : Store)], 0x20000 ≤ f.addr) ∧
    ({ sb := [⟨0x1FFFC, b, 0⟩] } : Core).dataBytes 0x1FFFC 4 = b ∧ ({ sb := [⟨0x1FFFC, b, 1⟩] } : Core).dataBytes 0x1FFFC 4 = zeros 4 ∧
    ({ fresh := [⟨0x1FFFC, zeros 4, b, 2⟩], dsram := [(0x1FFFC, 1), (0x1FFFD, 2), (0x1FFFE, 3), (0x1FFFF, 4)] } : Core).dataBytes 0x1FFFC 4 = zeros 4 := by
  decide

/-- Witness of BadAccessesTrap: a misaligned word and half-word, and the ends of the two holes of the data space. -/
theorem wit_bad_accesses : let s (a : Word) := tCore fun c => c.wr 5 a
    (s 1).goes 3 ∧ ((s 0x102).seen 3).ea 5 0 = 0x102 ∧ ((s 0x101).seen 3).ea 5 0 = 0x101 ∧ ((s 0x28000).seen 3).ea 5 0 = 0x28000 ∧
    ((s 0x3FFFFFFC).seen 3).ea 5 0 = 0x3FFFFFFC ∧ ((s 0x81000000).seen 3).ea 5 0 = 0x81000000 := by decide

/-- Witness of BranchesOpenADelaySlot, JumpsCallsAndReturns, BadTargetsAndStacksTrap, TrapReturn (ERET outside a handler) and SyncAndDone (an empty
buffer): targets at both ends of the program space, and stack pointers at the limit, misaligned and beyond the stack's memories. -/
theorem wit_flow : let s (a sp : Word) := tCore fun c => (c.wr 5 a).wr 31 sp
    let c (sp : Word) := (s 0 sp).seen 3
    ((s 0 0).goes 3 ∧ (s 0 0).cores[(3 : CoreIx)].slot = none ∧ (s 0 0).cores[(3 : CoreIx)].inScout = false ∧ (c 0).tr.inTrap = false ∧
      (c 0).fresh = [] ∧ (c 0).sb = []) ∧
    ((s 0 0).seen 3).rd 5 = 0 ∧ ((s 0xFFFC 0).seen 3).rd 5 = 0xFFFC ∧ ((s 0xFFFD 0).seen 3).rd 5 = 0xFFFD ∧ ((s 0x10000 0).seen 3).rd 5 = 0x10000 ∧
    (c 0x10004).cr.spLim.toNat ≤ ((c 0x10004).rd 31 - 4).toNat ∧ ((c 0x10002).rd 31 - 4).toNat % 4 = 2 ∧
    ((c 0x10000).rd 31 - 4).toNat < (c 0x10000).cr.spLim.toNat ∧ ((c 0x28004).rd 31 - 4).toNat = 0x28000 ∧ ((c 0x1FFFC).rd 31).toNat < 0x20000 := by decide

/-- Witness of FlowIsIllegalInSlotAndAtLoopEnd and WhereExecutionGoesOn: in a delay slot, at the end of a loop, both, at the last pass and not. -/
theorem wit_slot_and_loop_end : let s (sl ac : Bool) := tCore fun c =>
      { c.wr 29 2 with slot := if sl then some (0x1FC, 0x300, true) else none, cr := { c.cr with lact := ac, lstart := 0x1F0, lend := 0x200 } }
    ((s true false).executes 3 ∧ (s true false).cores[(3 : CoreIx)].slot.isSome = true ∧ (s true false).cores[(3 : CoreIx)].nextPc.toNat ≤ 0xFFFC) ∧
    ((s false true).executes 3 ∧ (s false true).cores[(3 : CoreIx)].cr.lact = true ∧
      (s false true).cores[(3 : CoreIx)].pc = (s false true).cores[(3 : CoreIx)].cr.lend ∧ (s false true).cores[(3 : CoreIx)].landDue.rd 29 ≠ 1) ∧
    ((s true true).executes 3 ∧ (s true true).cores[(3 : CoreIx)].slot.isSome = true ∧ (s true true).cores[(3 : CoreIx)].cr.lact = true) ∧
    (((tCore fun c => c.wr 29 1).modCore 3 fun c => { c with pc := 0xFFFC }).cores[(3 : CoreIx)].pc = 0xFFFC ∧
      (tCore fun c => c.wr 29 1).cores[(3 : CoreIx)].landDue.rd 29 = 1) := by decide

/-- Witness of TrapEntry and TrapReturn: a handler enabled, and one that runs; opcode 0 is undefined. -/
theorem wit_traps : let s (b : Bool) := tCore fun c => { c with tr := { c.tr with en := true, inTrap := b, tvec := 0x100, erpc := 0xFFFC } }
    ((s false).goes 3 ∧ (s false).cores[(3 : CoreIx)].slot = none ∧ (s false).cores[(3 : CoreIx)].tr.en = true ∧ (s false).cores[(3 : CoreIx)].tr.inTrap = false ∧
      undefinedWord 0 = true) ∧
    ((s true).goes 3 ∧ (s true).cores[(3 : CoreIx)].tr.inTrap = true ∧ (s true).cores[(3 : CoreIx)].tr.erpc.toNat ≤ 0xFFFC ∧ (s true).cores[(3 : CoreIx)].tr.plact = false) := by
  decide

/-- Witness of LoopAndRepeatOpen: loops of 1 and 4,096 instructions, in a loop and outside, counts zero and not, a legal and an illegal element. -/
theorem wit_loops : let s (ac : Bool) (n : Word) := tCore fun c => { c.wr 28 n with cr := { c.cr with lact := ac } }
    ((s false 0).goes 3 ∧ (s false 0).cores[(3 : CoreIx)].slot = none ∧ ((s false 0).seen 3).cr.lact = false ∧ ((s false 0).seen 3).pc.toNat + 4 * 4096 + 4 ≤ 0xFFFC) ∧
    ((s true 0).goes 3 ∧ ((s true 0).seen 3).cr.lact = true) ∧ ((s false 3).seen 3).rd 28 ≠ 0 ∧ ((s false 0).seen 3).rd 28 = 0 ∧
    rptLegal (encS 0x4D 2 0 7 0 false) = true ∧ rptLegal (encN 0x42) = false := by decide

/-- Witness of SyncAndDone, ControlRegisterReads and ControlRegisterWrites: a routine outside the Scout lane, with an empty store buffer and not. -/
theorem wit_routine : let s (l : List Store) := tCore fun c => { c.wr 5 0x8B with sb := l }
    ((s []).goes 3 ∧ (s []).cores[(3 : CoreIx)].slot = none ∧ (s []).cores[(3 : CoreIx)].run = some ⟨5, false, false, 0, false, 0⟩ ∧ (s []).cores[(3 : CoreIx)].sb = []) ∧
    ((s [⟨0x20000, [1], 0⟩]).goes 3 ∧ (s [⟨0x20000, [1], 0⟩]).cores[(3 : CoreIx)].sb ≠ []) ∧ 10 < (((s []).seen 3).rd 5).toNat % 16 ∧
    (((s []).seen 3).rd 0).toNat % 16 ≤ 10 ∧ 0x04A ≤ (0x3FF : BitVec 10).toNat := by decide

/-- Witness of StringElements and RepeatPairElements: pointers at the last word of data SRAM, the last element of a pair and one before it. -/
theorem wit_strings : let s (n : Word) (r : Option Rpt) := tCore fun c => { ((c.wr 26 0x1FFFC).wr 27 0x1FFFC).wr 28 n with rpt := r }
    let r : Rpt := ⟨0x200, encS 0x4D 2 0 7 0 false, none⟩
    ((s 0 none).goes 3 ∧ (s 0 none).cores[(3 : CoreIx)].inScout = false ∧ (s 0 none).cores[(3 : CoreIx)].fresh = [] ∧ (2 : BitVec 2) ≠ 3 ∧
      ((s 0 none).seen 3).rd 26 = 0x1FFFC ∧ ((s 0 none).seen 3).rd 27 = 0x1FFFC) ∧
    ((s 1 (some r)).alive ∧ (s 1 (some r)).cores[(3 : CoreIx)].ready = true ∧ (s 1 (some r)).cores[(3 : CoreIx)].rpt = some r ∧
      (s 1 (some r)).cores[(3 : CoreIx)].slot = none ∧ (s 1 (some r)).cores[(3 : CoreIx)].cr.lact = false ∧ (s 1 (some r)).cores[(3 : CoreIx)].rd 28 = 1) ∧
    (s 2 (some r)).cores[(3 : CoreIx)].rd 28 ≠ 1 := by decide

/-- Witness of FarElementsHoldTheCore: sources at the first word of cluster SRAM and the last of the local-memory window. -/
theorem wit_far_elements : let s (a : Word) := tCore fun c => (c.wr 26 a).wr 27 0x1FFFC
    ((s 0x20000).goes 3 ∧ (s 0x20000).cores[(3 : CoreIx)].inScout = false ∧ ((s 0x20000).seen 3).rd 26 = 0x20000 ∧ ((s 0x20000).seen 3).rd 27 = 0x1FFFC) ∧
    ((s 0x7FFFFFFC).seen 3).rd 26 = 0x7FFFFFFC := by decide

/-- Witness of DivisionResults, AngleAndMagnitudeResults and PortInstructions: the one overflow, division by zero, ports 127 and 128, a timed routine. -/
theorem wit_coprocessors : let s (a b : Word) := tCore fun c => { (c.wr 5 a).wr 6 b with run := some ⟨5, true, false, 0, false, 0⟩ }
    ((s 0x80000000 0xFFFFFFFF).goes 3 ∧ ((s 0x80000000 0xFFFFFFFF).seen 3).rd 5 = 0x80000000 ∧ ((s 0x80000000 0xFFFFFFFF).seen 3).rd 6 = 0xFFFFFFFF) ∧
    ((s 7 0).seen 3).rd 6 = 0 ∧ ((s 0 7).seen 3).rd 5 = 0 ∧ 0 < (((s 0 7).seen 3).rd 6).toInt ∧ 0 < (((s 7 0).seen 3).rd 5).toInt ∧
    (((s 127 0).seen 3).rd 5).toNat < 128 ∧ (((s 128 0).seen 3).rd 5).toNat = 128 ∧ (8 : BitVec 4).toNat ≤ 8 ∧ 8 < (9 : BitVec 4).toNat ∧
    (∃ r, (s 127 0).cores[(3 : CoreIx)].run = some r ∧ r.timed = true) := by
  refine ⟨by decide, by decide, by decide, by decide, by decide, by decide, by decide, by decide, by decide, ⟨_, rfl, rfl⟩⟩

/-- Witness of MezzanineTransactions: an identified card, its domain up, its bus free, and nobody waiting. -/
theorem wit_mezz : let s : State := { tCore id with mezz := { State.reset.mezz with fitted := true, id := 1, idOk := true } }
    s.goes 3 ∧ s.mezz.id ≠ 0 ∧ s.dom 7 = .on ∧ s.mezz.bus = none ∧ (∀ j : CoreIx, j ≠ 3 → s.cores[j].mzWaits = none) ∧ s.mzPresent = true := by decide

/-- Witness of MezzanineTransactions and MezzanineAnswers: no channel releases a transaction. -/
theorem wit_no_release : ∀ n : ChIx, State.reset.chans[n].sc.release = [] :=
  fun n => congrArg (fun x : Chan => x.sc.release) (Vector.getElem_replicate n.isLt)

/-- Witness of MezzanineAnswers: core 3 holds the bus with its own transaction, its handler enabled. -/
theorem wit_mezz_answer : let s : State := { tCore fun c => { c with hold := some (.mezz 7 1 2 3 4 true), tr := { c.tr with en := true } } with
      mezz := { State.reset.mezz with fitted := true, id := 1, idOk := true, bus := some 3 } }
    s.alive ∧ s.mezz.bus = some 3 ∧ s.mezz.rel = none ∧ s.cores[(3 : CoreIx)].hold = some (.mezz 7 1 2 3 4 true) ∧
    (∀ j : CoreIx, j ≠ 3 → s.cores[j].mzWaits = none) ∧ s.cores[(3 : CoreIx)].slot = none ∧ s.cores[(3 : CoreIx)].cr.lact = false ∧
    s.cores[(3 : CoreIx)].pc.toNat + 4 ≤ 0xFFFC ∧ s.cores[(3 : CoreIx)].tr.en = true ∧ s.cores[(3 : CoreIx)].tr.inTrap = false := by decide

/-! ### Channels -/

/-- Channel 5 in ACTIVE. -/
def tChan (f : Chan → Chan) : State := State.reset.modChan 5 fun x => f { x with state := .active }
/-- An entry with flags and an address. -/
def tCce (op : Nat) (flags : BitVec 8) (addr : Nat) : Cce := ⟨op, flags, 0, 0, 0, addr⟩
/-- A command of a queue. -/
def tCmd (q : QpIx) (opc target addr : Nat) (param : List Byte) : Cmd := ⟨q, 0, opc, false, 7, target, addr, param, 0⟩
/-- A state with a command at the front of its queue. -/
def tQueue (s : State) (c : Cmd) : State := s.modQp c.q fun x => { x with valid := true, waiting := [c] }

/-- Channel 5 in a state, with a command of queue 1 at its front, and clusters that are ready. -/
def tRun (opc : Nat) (ncl : BitVec 4) (x : Chan) : State :=
  tQueue { State.reset with glb := { State.reset.glb with ncl := ncl }, chans := State.reset.chans.set 5 x } (tCmd 1 opc 5 0x1000 [])

/-- Witness of every statement that asks for the command fetched first: a command of place 0 is. -/
theorem wit_fetched_first (s : State) (q : QpIx) (opc target addr : Nat) (l : List Byte) : s.fetchedFirst (tCmd q opc target addr l) = true := by
  simp only [State.fetchedFirst, List.all_eq_true]
  intro i _
  split
  · exact decide_eq_true (Nat.zero_le _)
  · rfl

/-- Witness of RunChainStartsOrWaits: a bound channel of a ready cluster, idle, active with 15 and posting with 16 pending commands and fenced, an
unbound one, and one of a cluster that is not ready. -/
theorem wit_run_chain : let c := tCmd 1 0x01 5 0x1000 []
    let s (st : ChState) (b : Bool) (n : Nat) := tRun 0x01 0xF { state := st, bind := { bound := b }, pend := List.replicate n c }
    ((s .idle true 0).alive ∧ (s .idle true 0).qps[(1 : QpIx)].waiting = [c] ∧ (s .idle true 0).chans[(5 : ChIx)].bind.bound = true ∧
      (s .idle true 0).nclReady 0 = true ∧ (s .idle true 0).chans[(5 : ChIx)].state = .idle) ∧
    ((s .active true 15).chans[(5 : ChIx)].state = .active ∧ (s .active true 15).chans[(5 : ChIx)].pend.length < 16) ∧
    16 ≤ (s .posting true 16).chans[(5 : ChIx)].pend.length ∧ (s .fenced true 0).chans[(5 : ChIx)].state = .fenced ∧
    (s .idle false 0).chans[(5 : ChIx)].bind.bound = false ∧ (tRun 0x01 0xE {}).nclReady 0 = false := by decide

/-- Witness of ResumeChannelEffects: a channel in CHECK with a pending command and without, running with a resume pending and without, and suspended. -/
theorem wit_resume : let c := tCmd 1 0x02 5 0x1000 []
    let s (st : ChState) (r : Bool) (l : List Cmd) := tRun 0x02 0xF { state := st, resPend := r, pend := l }
    ((s .suspended false []).alive ∧ (s .suspended false []).qps[(1 : QpIx)].waiting = [c] ∧ (s .suspended false []).chans[(5 : ChIx)].state = .suspended) ∧
    ((s .check false []).chans[(5 : ChIx)].state = .check ∧ (s .check false []).chans[(5 : ChIx)].pend = []) ∧ (s .check false [c]).chans[(5 : ChIx)].pend = c :: [] ∧
    ((s .active false []).chans[(5 : ChIx)].state = .active ∧ (s .active false []).chans[(5 : ChIx)].resPend = false) ∧
    (s .posting true []).chans[(5 : ChIx)].resPend = true := by decide

/-- Witness of ClearChannelHalts: a suspended channel and a fenced one with their commands, and an active one whose routine runs on a core. -/
theorem wit_clear : let d := tCmd 1 0x01 5 0 []
    let c := tCmd 0 0x89 5 0 []
    let o : Op := ⟨0x40, [], true, [], 0, some 3⟩
    let s (st : ChState) := tQueue { State.reset with chans := State.reset.chans.set 5 { state := st, cur := some d, pend := [d], op := some o } } c
    ((s .suspended).alive ∧ (s .suspended).qps[(0 : QpIx)].waiting = c :: [] ∧ c.opc = 0x89 ∧ (s .suspended).hq.running = none ∧
      (s .suspended).chans[(5 : ChIx)].state = .suspended ∧ (s .suspended).chans[(5 : ChIx)].sc.run = .none) ∧ (s .fenced).chans[(5 : ChIx)].pend = [d] ∧
    ((s .active).chans[(5 : ChIx)].state = .active ∧ ((s .active).chans[(5 : ChIx)].op.bind (·.core)).isSome = true) := by decide

/-- Witness of HaltsAtTheBoundary: a halting channel at its boundary, under a clear, and after a reset with and without a chain held since; one that
does not halt. -/
theorem wit_halts : let d := tCmd 1 0x01 5 0 []
    let s (h : Bool) (c : Option Cmd) (l : List Cmd) : State :=
      { State.reset with chans := State.reset.chans.set 5 { state := .active, halting := h, cur := some d, pend := l, clear := c } }
    ((s true (some d) [d]).alive ∧ (s true (some d) [d]).chans[(5 : ChIx)].halting = true ∧ (s true (some d) [d]).chans[(5 : ChIx)].state = .active ∧
      (s true (some d) [d]).chans[(5 : ChIx)].ent = none ∧ (s true (some d) [d]).chans[(5 : ChIx)].op = none ∧ (s true (some d) [d]).chans[(5 : ChIx)].cont = none ∧
      (s true (some d) [d]).chans[(5 : ChIx)].clear = some d) ∧
    ((s true none []).chans[(5 : ChIx)].clear = none ∧ (s true none []).chans[(5 : ChIx)].pend = []) ∧ (s true none [d, d]).chans[(5 : ChIx)].pend = d :: [d] ∧
    (s false none []).chans[(5 : ChIx)].halting = false := by decide

/-- Witness of EntriesAreRead: the last entry of local memory and one of host memory, a good entry, and the unknown operations 0x00 and 0x81. -/
theorem wit_entries : let s (a : Nat) := tChan fun x => { x with next := a }
    let b (op : Byte) : List Byte := op :: List.replicate 15 0
    ((s 0xDFFFFFF0).alive ∧ (s 0xDFFFFFF0).chans[(5 : ChIx)].reads = true ∧ (s 0xDFFFFFF0).chans[(5 : ChIx)].op = none ∧
      (s 0xDFFFFFF0).chans[(5 : ChIx)].next % 16 = 0 ∧ (s 0xDFFFFFF0).chans[(5 : ChIx)].next + 16 ≤ 0xE0000000) ∧
    ((s (2 ^ 63)).chans[(5 : ChIx)].reads = true ∧ 2 ^ 63 ≤ (s (2 ^ 63)).chans[(5 : ChIx)].next) ∧
    ((parseCce (b 1)).op = 0x01 ∧ (parseCce (b 1)).fault false false = 0 ∧ (b 1).length = 16) ∧ (parseCce (b 0)).op = 0x00 ∧ 0x81 ≤ (parseCce (b 0x81)).op := by decide

/-- Channel 5 before an entry, of a chain whose present entry lies at 0x40. -/
def tEntry (op : Nat) (fl : BitVec 8) (a ctl d : Nat) : State := tChan fun x =>
  { x with ent := some (tCce op fl a), cce := 0x40, ctl := ctl, depth := d, cx := x.cx.set 0 2, cur := some (tCmd 1 0x01 5 0 []) }

/-- Witness of ControlEntries and ChainsThatCannotAdvanceEnd: entries with NEXT, the 63rd and the 64th in a row. -/
theorem wit_control_next : (tEntry 0x01 0x01 0 62 0).atEntry 5 0x01 (tCce 0x01 0x01 0) ∧ (tEntry 0x06 0x01 7 0 0).atEntry 5 0x06 (tCce 0x06 0x01 7) ∧
    (tEntry 0x02 0x01 0 0 0).atEntry 5 0x02 (tCce 0x02 0x01 0) ∧ (tEntry 0x01 0x01 0 63 0).chans[(5 : ChIx)].ctl = 63 := by decide

/-- Witness of ControlEntries and ChainsThatCannotAdvanceEnd: jumps and branches elsewhere and to themselves. -/
theorem wit_control_flow : let s := tEntry
    ((s 0x03 0x00 0x80 0 0).atEntry 5 0x03 (tCce 0x03 0x00 0x80) ∧ (tCce 0x03 0x00 0x80).addr ≠ (s 0x03 0x00 0x80 0 0).chans[(5 : ChIx)].cce) ∧
    ((s 0x03 0x00 0x40 0 0).atEntry 5 0x03 (tCce 0x03 0x00 0x40) ∧ (tCce 0x03 0x00 0x40).addr = (s 0x03 0x00 0x40 0 0).chans[(5 : ChIx)].cce) ∧
    ((s 0x07 0x00 0x80 0 0).atEntry 5 0x07 (tCce 0x07 0x00 0x80) ∧ 2 ≤ ((s 0x07 0x00 0x80 0 0).chans[(5 : ChIx)].cx[(0 : Fin 16)]).toNat ∧
      State.reset.chans[(5 : ChIx)].cx[(0 : Fin 16)] = 0) := by decide

/-- Witness of ChainEndCompletesTheCommand, CallsSaveAndReturnsRestore and ChainsThatCannotAdvanceEnd: an entry without NEXT, calls at the last and
returns at the first level. -/
theorem wit_control_calls : let s := tEntry
    ((s 0x01 0x00 0 0 0).atEntry 5 0x01 (tCce 0x01 0x00 0) ∧ (s 0x01 0x00 0 0 0).chans[(5 : ChIx)].cur = some (tCmd 1 0x01 5 0 []) ∧
      (s 0x01 0x00 0 0 0).chans[(5 : ChIx)].pend = [] ∧ (s 0x01 0x00 0 0 0).chans[(5 : ChIx)].sc.hitCmd = false) ∧
    ((s 0x04 0x00 0x80 0 7).atEntry 5 0x04 (tCce 0x04 0x00 0x80) ∧ (s 0x04 0x00 0x80 0 7).chans[(5 : ChIx)].depth < 8) ∧
    ((s 0x05 0x00 0 0 1).atEntry 5 0x05 (tCce 0x05 0x00 0) ∧ (s 0x05 0x00 0 0 1).chans[(5 : ChIx)].depth ≠ 0) := by decide

/-- Witness of ControlEntries (WAITF_END): the last DISPATCH point of a wait has come. -/
theorem wit_waitf_end : let s := tChan fun x => { x with ent := some (tCce 0x02 0x01 0), wait := .waitf, waitN := 0 }
    s.alive ∧ s.chans[(5 : ChIx)].ent = some (tCce 0x02 0x01 0) ∧ s.chans[(5 : ChIx)].wait = .waitf ∧ s.chans[(5 : ChIx)].halting = false ∧
    s.chans[(5 : ChIx)].post.en = false := by decide

/-- Cores with one routine in every slot. -/
def tSlots (s : State) (valid : Bool) : State :=
  s.modCore 0 fun c => { c with slots := Vector.replicate 32 { valid := valid, timed := false, entry := 0x100 } }

/-- Channel 5 with a device operation whose one segment is read. -/
def tDevice (op n a : Nat) : State :=
  tSlots (tChan fun x => { x with op := some ⟨op, [⟨a, n, true⟩], false, [], 0, none⟩, ent := some (tCce op 0x01 a) }) true

/-- Witness of DeviceOperationsBecomeReady and of the counts of ChainsThatCannotAdvanceEnd: areas of 16,384 and 16,385 bytes, in local and host memory. -/
theorem wit_device :
    let g (op n a : Nat) : Bool := (tDevice op n a).chans[(5 : ChIx)].gathering == some (⟨op, [⟨a, n, true⟩], false, [], 0, none⟩, tCce op 0x01 a) &&
      ((tDevice op n a).cores[(0 : CoreIx)].slots[(finOf 32 op : Fin 32)]).valid
    (tDevice 0 0 0).alive ∧ g 0x5F 16384 (2 ^ 63) = true ∧ g 0x40 16384 0x1000 = true ∧ g 0x60 16384 0x1000 = true ∧ g 0x7F 16385 0x1000 = true ∧
    g 0x40 16385 0x1000 = true := by decide

/-- Witness of DeviceOperationsBecomeReady: a timed operation while the window is open and after it, and an empty slot of the bound core. -/
theorem wit_device_timed : let s (p : Phase) : State := { (tDevice 0x40 4 0x1000).modCore 0 (fun c => { c with
      slots := Vector.replicate 32 { valid := true, timed := true, entry := 0x100 } }) with tick := { State.reset.tick with phase := p } }
    ((s .dispatch).alive ∧ (s .dispatch).tick.phase = .dispatch ∧ ((s .dispatch).cores[(0 : CoreIx)].slots[(0 : Fin 32)]).timed = true) ∧
    ((s .edge).tick.phase ≠ .dispatch ∧ (s .edge).tick.phase ≠ .input) ∧
    (((tSlots (tDevice 0x40 4 0x1000) false).cores[(0 : CoreIx)].slots[(0 : Fin 32)]).valid = false ∧
      (tSlots (tDevice 0x40 4 0x1000) false).chans[(5 : ChIx)].bind.anyCore = false) := by decide

/-- A ready operation of a granted channel. -/
def tReady : State :=
  { tSlots (tChan fun x => { x with granted := true, bind := { x.bind with bound := true }, op := some ⟨0x40, [], true, [], 0, none⟩ }) true with
    glb := { State.reset.glb with ncl := 0xF } }

/-- Witness of RoutinesStartWithTheirEntryState: a ready operation of a granted channel on a free core of a cluster that is up. -/
theorem wit_routine_start : tReady.alive ∧ tReady.bestFor 0 = some 5 ∧ tReady.chans[(5 : ChIx)].op = some ⟨0x40, [], true, [], 0, none⟩ ∧
    tReady.chans[(5 : ChIx)].bind.anyCore = false ∧ tReady.dom 1 = .on ∧ tReady.coreTakes 0 5 = true ∧
    (tReady.opSlot 0 ⟨0x40, [], true, [], 0, none⟩).valid = true := by decide +kernel

/-- Witness of PostConfigurationWrites: sizes 3, 4, 12 and 13, an idle and an active channel. -/
theorem wit_post_cfg : State.reset.alive ∧ State.reset.chans[(5 : ChIx)].state = .idle ∧ (tChan id).chans[(5 : ChIx)].state = .active ∧
    (4 : Word).toNat % 16 = 4 ∧ (0x8000000C : Word).toNat % 16 = 12 ∧ (3 : Word).toNat % 16 < 4 ∧ 12 < (13 : Word).toNat % 16 := by decide

/-- A Scout run that waits for its core. -/
def tScout (valid : Bool) : State := 
  tSlots { State.reset.modChan 5 (fun x => { x with sc := { x.sc with run := .waiting true, core := 0 } }) with glb := { State.reset.glb with ncl := 0xF } } valid

/-- Witness of ScoutRunsStart: a run that waits for a free core, with a valid slot and without. -/
theorem wit_scout_run : let s := tScout
    (s true).alive ∧ ((allFin 256).find? fun m => (s true).chans[m].sc.run == .waiting true && (s true).chans[m].sc.core == 0) = some 5 ∧
    (s true).coreFree 0 = true ∧ (s true).dom 5 = .on ∧
    ((s true).cores[(0 : CoreIx)].slots[(0 : Fin 32)]).valid = true ∧ ((s false).cores[(0 : CoreIx)].slots[(0 : Fin 32)]).valid = false := by decide +kernel

/-! ### Move engine -/

/-- Move channel 2, running. -/
def tMc (f : Mc → Mc) : State := { State.reset.modMc 2 (fun x => f { x with state := .running }) with glb := { State.reset.glb with move := true } }
/-- A descriptor: opcode, second and third byte, 32-bit word at 4, 64-bit words at 8 and 16. -/
def tDesc (op x y w src dst : Nat) : List Byte := leBytes 1 op ++ leBytes 1 x ++ leBytes 1 y ++ zeros 1 ++ leBytes 4 w ++ leBytes 8 src ++ leBytes 8 dst ++ zeros 8
/-- Move channel 2 at a descriptor. -/
def tAt (b : List Byte) (f : Mc → Mc) : State := tMc fun x => f { x with desc := some b }

/-- Witness of MoveProgramsStart: an unbound channel, idle and running, a bound one, and a granted chain's MOVE entry. -/
theorem wit_move_run : let s (st : McState) (b : Option ChIx) := tQueue { State.reset.modMc 2 (fun x => { x with state := st, bound := b }) with
      glb := { State.reset.glb with move := true } } (tCmd 1 0x03 2 0x1000 [])
    ((s .idle none).alive ∧ (s .idle none).qps[(1 : QpIx)].waiting = [tCmd 1 0x03 2 0x1000 []] ∧ finOf 64 (tCmd 1 0x03 2 0x1000 []).target = 2 ∧
      (s .idle none).glb.move = true ∧ (s .idle none).mcs[(2 : McIx)].bound = none ∧ (s .idle none).mcs[(2 : McIx)].fenced = false ∧
      (s .idle none).mcs[(2 : McIx)].state = .idle) ∧ (s .running none).mcs[(2 : McIx)].state = .running ∧ (s .idle (some 5)).mcs[(2 : McIx)].bound = some 5 := by decide

/-- Witness of MoveProgramsStart: a fenced channel, and one before the MOVE bit. -/
theorem wit_move_refused : let s (f : Bool) := tQueue (State.reset.modMc 2 fun x => { x with fenced := f }) (tCmd 1 0x03 2 0x1000 [])
    (s true).mcs[(2 : McIx)].fenced = true ∧ (s true).mcs[(2 : McIx)].bound = none ∧
    ((s false).mcs[(2 : McIx)].fenced = false ∧ (s false).glb.move = false) := by decide

/-- A chain's MOVE entry on its bound move channel. -/
def tMoveEntry : State := { tChan (fun x => { x with ent := some (tCce 0x80 0x01 0x1000), bind := { x.bind with mc := some 2 }, granted := true }) with
  glb := { State.reset.glb with move := true } }

/-- Witness of MoveProgramsStart and ChainsThatCannotAdvanceEnd: the MOVE entry may start. -/
theorem wit_move_entry : tMoveEntry.atEntry 5 0x80 (tCce 0x80 0x01 0x1000) ∧ tMoveEntry.chans[(5 : ChIx)].bind.mc = some 2 ∧
    tMoveEntry.mcs[(2 : McIx)].fenced = false ∧ tMoveEntry.chans[(5 : ChIx)].granted = true ∧ tMoveEntry.glb.move = true ∧
    tMoveEntry.mcs[(2 : McIx)].state = .idle := by decide

/-- Witness of LanesServeReadyChannels: a ready channel of each lane, and a bulk lane that is held. -/
theorem wit_lanes : let s (b : Bool) := tMc fun x => { x with state := .ready, bulk := b }
    ((s true).alive ∧ (s true).served true = false ∧ (s true).bulkHeld = false ∧ (s true).mcs[(2 : McIx)].bulk = true ∧ (s true).mcs[(2 : McIx)].state = .ready) ∧
    ((s false).served false = false ∧ (s false).mcs[(2 : McIx)].bulk = false) ∧
    ({ s true with fan := { State.reset.fan with bulkOn := false } } : State).bulkHeld = true := by decide +kernel

/-- Witness of DescriptorsAreRead: the last descriptor of local memory, one of host memory, a misaligned one, and an END descriptor. -/
theorem wit_descriptors : let s (a : Nat) := tMc fun x => { x with pc := a }
    ((s 0xDFFFFFE0).alive ∧ (s 0xDFFFFFE0).mcBegins 2 = true ∧ (s 0xDFFFFFE0).mcs[(2 : McIx)].pc + 32 ≤ 0xE0000000 ∧ (s 0xDFFFFFE0).mcs[(2 : McIx)].pc % 32 = 0) ∧
    ((s (2 ^ 64 - 32)).mcBegins 2 = true ∧ (s (2 ^ 64 - 32)).mcs[(2 : McIx)].pc % 32 = 0 ∧ (s (2 ^ 64 - 32)).mcs[(2 : McIx)].pc < 2 ^ 64) ∧
    ((s 0x10).mcBegins 2 = true ∧ (s 0x10).mcs[(2 : McIx)].pc % 32 ≠ 0) ∧ dOp (tDesc 5 0 0 0 0 0) = 0x05 ∧ (tDesc 5 0 0 0 0 0).length = 32 ∧
    (∀ i, i < 32 → 1 ≤ i → (tDesc 5 0 0 0 0 0).getD i 0 = 0) := by decide

/-- Witness of MovesCopyBytes: 4,096 bytes between the ends of local memory, and to the end of host memory. -/
theorem wit_moves : let b (dst : Nat) := tDesc 1 0 0 4096 0 dst
    ((tAt (b 0xDFFFF000) id).alive ∧ (tAt (b 0xDFFFF000) id).mcDesc 2 0x01 = some (b 0xDFFFF000) ∧ leAt (b 0xDFFFF000) 1 1 = 0 ∧ leAt (b 0xDFFFF000) 4 4 = 4096 ∧
      leAt (b 0xDFFFF000) 8 8 = 0 ∧ leAt (b 0xDFFFF000) 16 8 + 4096 ≤ 0xE0000000) ∧
    ((tAt (b (2 ^ 64 - 4096)) id).mcDesc 2 0x01 = some (b (2 ^ 64 - 4096)) ∧ leAt (b (2 ^ 64 - 4096)) 16 8 + 4096 ≤ 2 ^ 64 ∧
      State.reset.hq.d3 = false) := by decide

/-- Witness of MovesAreMade: a MOVE between local memory areas, one to host memory in D3hot, and one that is misaligned for ALIGN 32 and so a check. -/
theorem wit_moves_made : let b (al dst : Nat) := tDesc 1 0 al 64 0 dst
    let sides (al dst : Nat) := (tMc id).mcs[(2 : McIx)].sides (b al dst)
    ((tAt (b 0 0x1000) id).mcDesc 2 0x01 = some (b 0 0x1000) ∧ moveFault false (sides 0 0x1000).1 (sides 0 0x1000).2 64 = 0 ∧
      (sides 0 0x1000).1.at_.domain = none ∧ (sides 0 0x1000).2.at_.domain = none ∧ (tAt (b 0 0x1000) id).hostWaits false (sides 0 0x1000).2.at_ = false) ∧
    (let s : State := { tAt (b 0 (2 ^ 63)) id with hq := { State.reset.hq with d3 := true, issues := true } }
     moveFault false (sides 0 (2 ^ 63)).1 (sides 0 (2 ^ 63)).2 64 = 0 ∧ s.hostWaits false (sides 0 (2 ^ 63)).2.at_ = true) ∧
    moveFault false (sides 0 (2 ^ 63 - 32)).1 (sides 0 (2 ^ 63 - 32)).2 64 ≠ 0 := by decide

/-- Witness of MovesCopyBytes: the host interface issues while it is up; a program under a host reset and not. -/
theorem wit_issues : ({ State.reset.hq with issues := true }).issues = true ∧ ∀ c, ({ cut := c } : Mc).cut = c := ⟨rfl, fun _ => rfl⟩

/-- Witness of LoopDescriptors: a loop for ever, the first pass, one in its course and the last. -/
theorem wit_loop_descriptors : let b (n : Nat) := tDesc 2 0 0 n 0x1000 0
    let s (n : Nat) (la : Bool) (lc : Nat) := tAt (b n) fun x => { x with lact := la, lc := lc, ctl := 62 }
    ((s 0 false 0).alive ∧ (s 0 false 0).mcDesc 2 0x02 = some (b 0) ∧ (s 0 false 0).mcs[(2 : McIx)].ctl < 63 ∧ mProgOk (leAt (b 0) 8 8) = true ∧
      leAt (b 0) 4 3 = 0 ∧ (s 0 false 0).mcs[(2 : McIx)].lact = false) ∧
    ((s 2 false 0).mcDesc 2 0x02 = some (b 2) ∧ leAt (b 2) 4 3 = 2) ∧ leAt (b 1) 4 3 = 1 ∧
    ((s 2 true 1).mcs[(2 : McIx)].loopAt = (s 2 true 1).mcs[(2 : McIx)].pc ∧ (s 2 true 1).mcs[(2 : McIx)].lc = 1) := by decide

/-- Witness of LoopDescriptors: the 64th control descriptor in a row, a target that is no program address, and a loop inside a loop. -/
theorem wit_loop_checks : let x : Mc := { ctl := 63, lact := true, loopAt := 0x20 }
    63 ≤ x.ctl ∧ mProgOk 0x1010 = false ∧ ¬(x.lact = false ∨ x.loopAt = x.pc) := by decide

/-- Witness of WaitsForTicksAndDrains: a drain with a write outstanding. -/
theorem wit_drain_outstanding : let d := tDesc 3 3 0 0 0 0
    let s := tAt d fun x => { x with unacked := true }
    s.mcDesc 2 0x03 = some d ∧ leAt d 1 1 = 3 ∧ s.mcs[(2 : McIx)].unacked = true := by decide

/-- Witness of WaitsForTicksAndDrains: each wait, and each as it ends. -/
theorem wit_waits : let t := tDesc 3 1 1 4 0 0
    let d := tDesc 3 3 0 0 0 0
    ((tAt t id).alive ∧ (tAt t id).mcDesc 2 0x03 = some t ∧ leAt t 1 1 = 1) ∧ ((tAt d id).mcDesc 2 0x03 = some d ∧ leAt d 1 1 = 3) ∧
    ((tAt t fun x => { x with wait := .tick true 0 }).mcs[(2 : McIx)].wait = .tick true 0 ∧ (tAt t id).mcs[(2 : McIx)].stop = false) ∧
    (tAt d fun x => { x with wait := .drain }).mcs[(2 : McIx)].wait = .drain := by decide

/-- A state whose local memory holds the word 5 at 0x40. -/
def tWord (s : State) : State := { s with lmem := Memory.write [] 0x40 (leBytes 4 5) }

/-- Witness of WaitsForSignals: a mask that is met, with and without CLR, one that is not, and a waiting channel to be woken. -/
theorem wit_wait_signals : let b (clr mask : Nat) := tDesc 3 2 clr mask 0x40 0
    let s (clr mask : Nat) := tWord (tAt (b clr mask) id)
    ((s 0 4).alive ∧ (s 0 4).mcDesc 2 0x03 = some (b 0 4) ∧ leAt (b 0 4) 1 1 = 2 ∧ leAt (b 0 4) 8 8 = 0x40 ∧ leAt (b 0 4) 4 4 = 4 ∧ leAt (b 0 4) 2 1 = 0 ∧
      (BitVec.ofNat 32 (Memory.num (s 0 4).lmem 0x40 4) : Word) &&& 4 ≠ 0) ∧
    ((s 1 5).mcDesc 2 0x03 = some (b 1 5) ∧ leAt (b 1 5) 2 1 = 1) ∧ (BitVec.ofNat 32 (Memory.num (s 0 2).lmem 0x40 4) : Word) &&& 2 = 0 ∧
    (tMc fun x => { x with wait := .signal 0x40 4 false }).mcs[(2 : McIx)].wait = .signal 0x40 4 false := by decide

/-- Witness of WaitsForSignals: no lower channel waits. -/
theorem wit_no_waits : ∀ j : McIx, j < 2 → (tMc fun x => { x with wait := .signal 0x40 4 false }).mcs[j].wait = .none := by decide +kernel

/-- Witness of SignalsWriteTheirRecord: a record at the end of local memory. -/
theorem wit_signal : let b := tDesc 4 0x80 0 9 0xDFFFFFF0 0
    (tAt b id).alive ∧ (tAt b id).mcDesc 2 0x04 = some b ∧ leAt b 1 1 = 0x80 ∧ leAt b 8 8 = 0xDFFFFFF0 ∧ 0xDFFFFFF0 + 16 ≤ 0xE0000000 ∧
    (tAt b id).mcs[(2 : McIx)].ctl < 63 ∧ (tAt b id).mcs[(2 : McIx)].sig < 0xFFFFFFFE := by decide

/-- Witness of ProgramsEndAndStop and MoveChecksEndTheProgram: an END for a command, a running program, an idle channel, and a stop request at a boundary. -/
theorem wit_program_ends : let b := tDesc 5 0 0 0 0 0
    let c := tCmd 1 0x03 2 0 []
    let e := tAt b fun x => { x with owner := .cmd c }
    let p := tMc fun x => { x with owner := .cmd c, stop := true }
    (e.alive ∧ e.mcDesc 2 0x05 = some b ∧ e.mcs[(2 : McIx)].owner = .cmd c) ∧
    ((tMc id).mcs[(2 : McIx)].state = .running ∧ (0x80000000 : Word).getLsbD 31 = true ∧ (0x80000000 : Word).getLsbD 0 = (tMc id).mcs[(2 : McIx)].bulk) ∧
    State.reset.mcs[(2 : McIx)].state = .idle ∧
    (p.mcs[(2 : McIx)].stop = true ∧ p.mcs[(2 : McIx)].desc = none ∧ p.mcs[(2 : McIx)].owner = .cmd c ∧ p.mcs[(2 : McIx)].fenced = false ∧
      p.mcs[(2 : McIx)].stopDom = none) := by decide

/-! ### Registers and the frame -/

/-- Port 8, the first of Comb 1, with every Comb ready and the tick running. -/
def tPort (f : Port → Port) : State := { State.reset.modPort 8 f with glb := { State.reset.glb with comb := 0xFFFF, tick := true, image := true } }

/-- Witness of RegisterWritesByWidth and ReadsThatClear: a Comb that is ready and one that is not, the admin queue enabled and not, a channel that may
be written, an address off its alignment and a width of 16. -/
theorem wit_register_writes : (tPort id).alive ∧ (tPort id).combReady (combOf 8) = true ∧ State.reset.combReady (combOf 8) = false ∧ State.reset.hq.admEn = false ∧
    ({ State.reset.hq with admEn := true }).admEn = true ∧ State.reset.chans[(5 : ChIx)].writable = true ∧
    (¬((32 = 32 ∧ (0x2002 : Word).toNat % 4 = 0)) ∧ ¬(32 = 64 ∧ (0x2002 : Word).toNat % 8 = 0)) ∧ (¬(16 = 32) ∧ ¬(16 = 64)) := by decide

/-- Witness of TableAndConfiguration: sizes at the limits of the Device Control register and beyond them. -/
theorem wit_configuration : (fld (0x5040 : Word) 7 5 ≤ 2 ∧ fld (0x5040 : Word) 14 12 ≤ 5) ∧ 2 < fld (0x6060 : Word) 7 5 ∧ 5 < fld (0x6060 : Word) 14 12 := by decide

/-- A record of an event. -/
def tRec : EvRec := ⟨9, 7, 1, 3⟩

/-- Witness of TimeIsReadInHalves and CountersAndRecordsAreRead: a queue with a record and an empty one, at a port and at Reflex. -/
theorem wit_pops : let s := tPort fun x => { x with ev := { x.ev with unread := [tRec] } }
    (s.alive ∧ s.combReady (combOf 8) = true ∧ s.ports[(8 : PortIx)].ev.unread = [tRec]) ∧ (tPort id).ports[(8 : PortIx)].ev.unread = [] ∧
    State.reset.rx.evq = [] ∧ ({ State.reset.rx with evq := [⟨1, 2, 3, 4, 5, 6, 0⟩] }).evq = [⟨1, 2, 3, 4, 5, 6, 0⟩] := by decide

/-- The tick runs, and the frame has come to a point. -/
def tPhase (p : Phase) : State := { tPort id with tick := { State.reset.tick with phase := p, now := 64, ofs := 64, len := 31250 } }

/-- Witness of TickEdgesOpenFrames, DispatchGrantsWork, InputReadyPublishes, StepRunsTheFrontCommand and TheTickDoesNotStop: the tick runs, at each point of
the frame, or does not yet. -/
theorem wit_frame : (tPhase .seal).alive ∧ (tPhase .seal).glb.tick = true ∧ (tPhase .seal).tick.phase = .seal ∧ (tPhase .seal).tick.role ≠ .follower ∧
    (tPhase .seal).tick.link.adopt = none ∧ (tPhase .seal).tick.slew = 0 ∧ (tPhase .dispatch).tick.phase = .dispatch ∧ (tPhase .stage).tick.phase ≠ .seal ∧
    (tPhase .edge).tick.now = (tPhase .edge).tick.edge + (tPhase .edge).tick.ofs ∧ (tPhase .edge).tick.ofs + 16 ≤ (tPhase .edge).tick.point ∧
    State.reset.glb.tick = false ∧ Instr.powerUp ≠ .powerFailWarning := by decide

/-- Witness of TickEdgesOpenFrames: no core is held. -/
theorem wit_frame_cores : ∀ k : CoreIx, (tPhase .seal).cores[k].hold = none := by decide

/-- Witness of StagedValuesAreTaken (and of the work in DispatchGrantsWork): no routine runs and no channel is active; an active channel above the floor. -/
theorem wit_stage : (∀ k : CoreIx, (tPort id).cores[k].run = none) ∧ (∀ n : ChIx, (tPort id).chans[n].state ≠ .active) ∧
    State.reset.fan.floor ≤ (tChan fun x => { x with bind := { x.bind with prio := 7 } }).chans[(5 : ChIx)].bind.prio := by
  refine ⟨by decide, fun n => ?_, by decide⟩
  have h : (tPort id).chans[n] = { } := Vector.getElem_replicate n.isLt
  rw [h]; decide

/-- Witness of StagedValuesAreTaken: runs that have ended and that go on, with domain 5 up and drained. -/
theorem wit_seal : let s (r : ScRun) (d : Dom) : State := { (tPhase .stage).modChan 5 (fun x => { x with sc := { x.sc with run := r } }) with
      fan := { State.reset.fan with dom := State.reset.fan.dom.set 5 d } }
    ((s .ended .on).tick.phase = .stage ∧ (s .ended .on).chans[(5 : ChIx)].sc.run = .ended ∧ (s .ended .on).dom 5 = .on) ∧
    (s .running .draining).chans[(5 : ChIx)].sc.run = .running ∧ (s .running .draining).dom 5 ≠ .on ∧ (s .none .on).chans[(5 : ChIx)].sc.run = .none := by decide

/-- A tick state with its role and link. -/
def tTick (role : Role) (l : TickLink) : State := { State.reset with tick := { State.reset.tick with role := role, link := l } }

/-- Witness of PeriodsWaitEightEdges: the shortest and the longest period, one beyond each, and a pending period at counts 0 and 1. -/
theorem wit_periods : let n (v : Word) : Nat := fld v 17 0 * 256 + fld v 25 18
    n 0x3E8 = 256000 ∧ n 0x3D090 = 64000000 ∧ n 0x03FC03E7 < 256000 ∧ 64000000 < n 0x0007D090 ∧ (tPort id).tick.role ≠ .follower ∧
    (tTick .follower {}).tick.role = .follower ∧ (tPort id).glb.tick = true ∧ (tPort id).tick.phase = .edge ∧
    ({ State.reset.tick with pend := some (5, 0) }).pend = some (5, 0) ∧
    ({ State.reset.tick with pend := some (5, 1) }).pend = some (5, 0 + 1) := by decide

/-- A tick message of a place in the chain, with its check sum. -/
def tMessage (hop : Nat) : BitVec 128 :=
  let b : BitVec 128 := BitVec.ofNat 128 (0xA5 + hop * 2 ^ 12)
  b ||| BitVec.ofNat 128 ((crc8 (msgBits b)).toNat * 2 ^ 120)

/-- Witness of FollowersMeasureTheirLink: good messages of places 6 and 7, and a bad one. -/
theorem wit_messages : let ok (m : BitVec 128) : Bool := m.toNat % 256 == 0xA5 && (crc8 (msgBits m)).toNat == m.toNat / 2 ^ 120 && m.toNat / 2 ^ 8 % 16 == 0
    (ok (tMessage 6) = true ∧ (tMessage 6).toNat / 2 ^ 12 % 16 = 6) ∧ (ok (tMessage 7) = true ∧ (tMessage 7).toNat / 2 ^ 12 % 16 = 7) ∧ ok 0xA5 = false ∧
    (tTick .follower {}).alive := by decide +kernel

/-- Witness of FollowersMeasureTheirLink: a measurement asked for, its probes 63 and 64, a probe under way, and its end with 60 and with 59 returns. -/
theorem wit_cable : let s (l : TickLink) := tTick .follower l
    ((s { state := .locked }).tick.calReq = false ∧ (s { state := .locked }).tick.link.cal = none) ∧ (0x10 : Word).getLsbD 4 = true ∧
    ((s { cal := some (63, 60, 70000) }).tick.link.cal = some (63, 60, 70000) ∧ (s {}).tick.link.probeOut = false) ∧
    ((s { cal := some (2, 1, 1), probeOut := true }).tick.link.probeOut = true ∧ 1 < 2) ∧ roundDiv ((70000 : Int) - 1024 * 60) (2 * 60) ≤ 2400 ∧
    (64 ≤ 64 ∧ 59 < 60) := by decide

/-- Witness of FollowersAcquireAndHold: eight good messages and seven, lock of an old and a new follower, three markers missed and two. -/
theorem wit_link : let s (l : TickLink) := tTick .follower l
    ((s { good := 8 }).alive ∧ (s { good := 8 }).tick.role = .follower ∧ (s { good := 8 }).tick.link.state = .free ∧ (s { good := 8 }).tick.link.chainLong = false ∧
      8 ≤ (s { good := 8 }).tick.link.good) ∧ (s { good := 7 }).tick.link.good < 8 ∧
    (let l : TickLink := { state := .acquire, measured := true, near := 64 }
     (s l).tick.link.state = .acquire ∧ (s l).tick.link.measured = true ∧ 64 ≤ (s l).tick.link.near ∧ (s l).tick.link.everLocked = false ∧ (s l).glb.tick = false) ∧
    (s { state := .acquire, everLocked := true }).tick.link.everLocked = true ∧ (s { near := 63 }).tick.link.near < 64 ∧
    ((s { state := .locked, missed := 3, everLocked := true }).tick.link.everLocked = true ∧ (s { state := .locked, missed := 3 }).tick.link.state = .locked ∧ 3 ≤ (s { state := .locked, missed := 3 }).tick.link.missed) ∧
    (s { missed := 2 }).tick.link.missed < 3 := by decide

/-! ### Ports and graft pairs -/

/-- A port in a mode with its function option, running. -/
def tMode (mode : Nat) (range : Nat) (x : Port) : Port :=
  { x with r := { x.r with mode := BitVec.ofNat 32 mode, range := BitVec.ofNat 32 range }
           a := { x.a with mode := BitVec.ofNat 32 mode, range := BitVec.ofNat 32 range, runs := true } }

/-- Ports 8 and 9, a pair of Comb 1. -/
def tPorts (f g : Port → Port) : State := (tPort f).modPort 9 g

/-- Witness of EventRecordsArePosted: a queue with room, one with 64 unread, and one full with retained records, marked at the oldest and not at all. -/
theorem wit_events : let e (u r : Nat) (m : Option Int) := (tPort fun x => { x with ev := { x.ev with unread := List.replicate u tRec, ret := List.replicate r tRec, mark := m } }).ports[(8 : PortIx)].ev
    (e 63 0 none).unread.length + (e 63 0 none).ret.length < 64 ∧ (64 ≤ (e 64 0 none).unread.length ∧ (e 64 0 none).lost < 0xFFFFFFFE) ∧
    ((e 63 1 (some 1)).unread.length < 64 ∧ 64 ≤ (e 63 1 (some 1)).unread.length + (e 63 1 (some 1)).ret.length ∧
      (e 63 1 (some 1)).mark = some ((e 63 1 (some 1)).ret.length : Int)) ∧ (e 0 64 none).mark = none := by decide +kernel

/-- Witness of ModesChangeOverAFrame: listed and reserved values, a failed cell, a pair outside BYPASS, a mode written in an earlier frame, and a changeover. -/
theorem wit_modes : let l (m : Word) : Bool := modeOk (fld m 5 0) && fld m 17 16 != 3 && fld m 13 12 != 3
    let s := { tPort (fun x => { x with r := { x.r with mode := 1 } }) with tick := { State.reset.tick with frames := 1 } }
    let c := { tPort (fun x => { x with a := { x.a with change := some 1 } }) with tick := { State.reset.tick with frames := 1 } }
    let j := (tPort id).modPair 4 fun x => { x with link := true, mode := .observe }
    (l 0x28 = true ∧ l 0x29 = false ∧ l 0x30001 = false) ∧ ((tPort id).combReady (combOf 8) = true ∧ (tPort id).ports[(8 : PortIx)].st.cellFail = false ∧
      (tPort id).pairs[pairOf 8].link = false) ∧ (j.pairs[pairOf 8].link = true ∧ j.pairs[pairOf 8].mode ≠ .bypass) ∧
    (s.alive ∧ fld s.ports[(8 : PortIx)].r.mode 5 0 ≠ s.ports[(8 : PortIx)].modeNow ∧ s.ports[(8 : PortIx)].a.wrote < s.tick.frames) ∧
    (c.ports[(8 : PortIx)].a.change = some 1 ∧ c.ports[(8 : PortIx)].a.since < c.tick.frames) ∧
    (tPort fun x => { x with st := { x.st with cellFail := true } }).ports[(8 : PortIx)].st.cellFail = true := by decide

/-- Witness of SettingsTakeEffectAtAnEdge: a group's member that takes no value, settings of an earlier frame and of this one, 256 frames learned and 255. -/
theorem wit_settings : let s (m r : Nat) := { tPort (tMode m r) with tick := { State.reset.tick with frames := 1 } }
    (¬((s 0x01 0).ports[(8 : PortIx)].md = mDiff ∧ (s 0x01 0).ports[(8 : PortIx)].opt 31 28 = 7)) ∧
    ((s 0x10 0x70000000).ports[(8 : PortIx)].md = mDiff ∧ (s 0x10 0x70000000).ports[(8 : PortIx)].opt 31 28 = 7) ∧
    ((s 0x01 0).alive ∧ (s 0x01 0).ports[(8 : PortIx)].a.wrote < (s 0x01 0).tick.frames ∧ (s 0x01 0).ports[(8 : PortIx)].md ≠ mDi) ∧
    (tPort id).tick.frames ≤ (tPort id).ports[(8 : PortIx)].a.wrote ∧
    (tPort fun x => { x with st := { x.st with learn := some (256, 5) } }).ports[(8 : PortIx)].st.learn = some (256, 5) := by decide

/-- Witness of CommittedValuesReachThePin: a running port in each of three modes, free and held. -/
theorem wit_commit : let s (m : Nat) (h : Held) := tPort fun x => tMode m 0 { x with o := { x.o with held := h } }
    let g (m : Nat) (h : Held) : Bool := (s m h).ports[(8 : PortIx)].a.runs && !(s m h).ports[(8 : PortIx)].modeWaits && (s m h).ports[(8 : PortIx)].a.change.isNone &&
      !(s m h).linked 8 && (s m h).ports[(8 : PortIx)].md == m && (s m h).ports[(8 : PortIx)].o.held == h
    g 0x01 .free = true ∧ g 0x02 .free = true ∧ g 0x09 .free = true ∧ g 0x01 .hiz = true := by decide

/-- Witness of ConversionsHeatAndCalibration: conversions inside and beyond the range, an overheated and a cooled stage, a requested calibration. -/
theorem wit_conversions : let s := { tPort (tMode 0x03 0) with tick := { State.reset.tick with len := 250 } }
    let h (t : Bool) (w : Option Nat) : State := { tPort (fun x => tMode 0x01 0 { x with o := { x.o with therm := t, thermWait := w, on := true } }) with
      tick := { State.reset.tick with frames := 300 } }
    let q := (h false none).modComb 1 fun x => { x with calReq := 0x01 }
    let d := (h false none).modComb 1 fun x => { x with calPort := some 0, calFrom := 44 }
    (s.alive ∧ s.glb.tick = true ∧ s.ports[(8 : PortIx)].a.change = none ∧ s.isMeasuring 8 = false ∧ s.ports[(8 : PortIx)].md = mAiV ∧
      125 * s.ports[(8 : PortIx)].i.conv.length + 124 < s.tick.len) ∧
    (adcCode s.ports[(8 : PortIx)].calSet 524287 = 524287 ∧ 524287 < adcCode s.ports[(8 : PortIx)].calSet 524288) ∧
    ((h false none).ports[(8 : PortIx)].o.therm = false ∧ (h false none).ports[(8 : PortIx)].outMode = true ∧ (h false none).isDriving 8 = false ∧
      (h false none).combReady (combOf 8) = true) ∧ (h true none).ports[(8 : PortIx)].o.therm = true ∧
    ((h false (some 299)).ports[(8 : PortIx)].o.thermWait = some 299 ∧ 299 < (h false (some 299)).tick.frames ∧ (h false (some 299)).ports[(8 : PortIx)].o.on = true ∧
      (h false (some 299)).ports[(8 : PortIx)].o.driving = false ∧ (h false (some 299)).ports[(8 : PortIx)].o.fs = false ∧ (h false (some 300)).tick.frames ≤ 300) ∧
    (q.combReady 1 = true ∧ q.combFenced 1 = false ∧ q.combs[(1 : CombIx)].calPort = none ∧ q.combs[(1 : CombIx)].calReq.getLsbD 0 = true ∧
      calIx q.ports[(8 : PortIx)] = some 0 ∧ q.ports[(8 : PortIx)].modeNow ≠ mIdle ∧ q.ports[(8 : PortIx)].o.held = .free) ∧
    (d.combs[(1 : CombIx)].calPort = some 0 ∧ d.combs[(1 : CombIx)].calFrom + 256 ≤ d.tick.frames ∧ d.tick.phase = .edge ∧
      (d.modComb 1 fun x => { x with calFrom := 45 }).tick.frames < 45 + 256 ∧ d.ports[(8 : PortIx)].isAo = true ∧ finOf 128 (8 * 1 + 0) = (8 : PortIx)) ∧
    (calStep 0 64 = 64 ∧ 64 < calStep 0 65) := by decide

/-- Witness of GroupsSuppliesAndLevels: a complete group that waits, a supply that is fine and one that is low, inputs with and without a debounce
time, an edge whose time has come, an output's terminal, and a line without a fault so far. -/
theorem wit_groups : let s := tPorts (fun x => { tMode 0x10 0x11000000 x with a := { (tMode 0x10 0x11000000 x).a with runs := false } }) (tMode 0x10 0x71000000)
    let di (r : Nat) (c : PortCnt) := tPort fun x => tMode 0x08 r { x with c := c }
    (s.alive ∧ s.combReady (combOf 8) = true ∧ s.ports[(8 : PortIx)].a.runs = false ∧ s.leadComplete 8 = true ∧ s.ports[(8 : PortIx)].md ≠ mReader) ∧
    ((tPort id).combs[(1 : CombIx)].low = false ∧ ((tPort id).modComb 1 fun x => { x with low := true }).combs[(1 : CombIx)].low = true) ∧
    ((di 0x50000 {}).ports[(8 : PortIx)].a.change = none ∧ (di 0x50000 {}).ports[(8 : PortIx)].md = mDi ∧ (di 0x50000 {}).ports[(8 : PortIx)].c.line ≠ true ∧
      (di 0x50000 {}).isMeasuring 8 = false ∧ (di 0x50000 {}).ports[(8 : PortIx)].opt 31 16 ≠ 0 ∧ (di 0 {}).ports[(8 : PortIx)].opt 31 16 = 0 ∧
      (true != (di 0 {}).ports[(8 : PortIx)].a.range.getLsbD 12) ≠ (di 0 {}).ports[(8 : PortIx)].c.state) ∧
    ((di 0xC000 { line := true, debTs := some 8000 }).ports[(8 : PortIx)].c.debTs = some 8000 ∧ (di 0xC000 { line := true, debTs := some 8000 }).ports[(8 : PortIx)].opt 15 14 = 3 ∧
      (di 0 {}).ports[(8 : PortIx)].opt 15 14 = 0) ∧
    (tPort (tMode 0x09 0)).ports[(8 : PortIx)].md = mDo ∧ (s.ports[(8 : PortIx)].md = mDiff ∧ s.ports[(8 : PortIx)].st.f1 = false) := by decide

/-- Witness of CountersStepsAndPositions: an edge counter, a quadrature pair, steps to go, a pulse width, a resolver with and without its signal. -/
theorem wit_counters : let d (r : Nat) := tPorts (tMode 0x10 r) (tMode 0x10 0x70000000)
    let pu (r : Nat) (c : PortCnt) := tPort fun x => tMode 0x14 r { x with c := c }
    let re (b : Bool) := tPort fun x => tMode 0x18 0 { x with c := { x.c with loss := b }, a := { x.a with limits := 0x20 } }
    ((d 0x61000000).alive ∧ (d 0x61000000).ports[(8 : PortIx)].md = mDiff ∧ (d 0x61000000).ports[(8 : PortIx)].opt 31 28 = 6 ∧ (d 0x61000000).ports[(8 : PortIx)].a.runs = true ∧
      (d 0x61000000).ports[(8 : PortIx)].c.line ≠ true ∧ (d 0x61000000).ports[(8 : PortIx)].opt 27 26 ≠ 2 ∧ (d 0x61000000).isMeasuring 8 = false) ∧
    (edgeSel ((d 0x61000000).ports[(8 : PortIx)].opt 25 24) true = true ∧ edgeSel ((d 0x62000000).ports[(8 : PortIx)].opt 25 24) true = false) ∧
    ((d 0x30000000).ports[(8 : PortIx)].opt 31 28 = 3 ∧ (d 0x30000000).groupFrom 8 = some [(9, .cntMember)]) ∧
    ((pu 0 { left := 1 }).ports[(8 : PortIx)].md = mPulse ∧ (pu 0 { left := 1 }).ports[(8 : PortIx)].opt 31 30 = 0 ∧ (pu 0 { left := 1 }).ports[(8 : PortIx)].c.left ≠ 0 ∧
      (pu 0 { left := 1 }).fsOffAt 8 = false) ∧ (pu 0x80000000 {}).ports[(8 : PortIx)].opt 31 30 = 2 ∧
    ((re true).ports[(8 : PortIx)].md = mRes ∧ (re true).ports[(8 : PortIx)].opt 31 30 = 0 ∧ (re true).ports[(8 : PortIx)].c.loss = true ∧
      (re false).ports[(8 : PortIx)].c.loss = false ∧ (re false).ports[(8 : PortIx)].a.limits.getLsbD 5 = true) := by decide

/-- Witness of CountersStepsAndPositions: a transfer under way between a clock port and its data port. -/
theorem wit_ssi : let s := tPorts (fun x => tMode 0x1C 0 { x with c := { x.c with ssi := some 4 } }) (tMode 0x1C 0x80000000)
    s.ports[(8 : PortIx)].c.ssi = some 4 ∧ s.windings 8 = [9] ∧ s.ports[(8 : PortIx)].o.held = .free ∧ s.ports[(8 : PortIx)].a.range.getLsbD 12 = false := by decide

/-- Witness of CharactersAreSentAndReceived: a sender with a character and with a full queue, one that sends, one with handshake, and a receiver. -/
theorem wit_characters : let t (m r : Nat) (x' : PortTx) := tPort fun x => tMode m r { x with tx := x', a := { x.a with limits := 0x20 } }
    ((t 0x20 0 { q := [5] }).alive ∧ (t 0x20 0 { q := [5] }).combReady (combOf 8) = true ∧ (t 0x20 0 { q := [5] }).ports[(8 : PortIx)].transmits = true ∧
      (t 0x20 0 { q := [5] }).ports[(8 : PortIx)].tx.q.length < 256 ∧ (t 0x20 0 { q := [5] }).ports[(8 : PortIx)].tx.cur = none ∧
      (t 0x20 0 { q := [5] }).ports[(8 : PortIx)].handshake = false ∧ (t 0x20 0 { q := [5] }).ports[(8 : PortIx)].a.runs = true) ∧
    (256 ≤ (t 0x20 0 { q := List.replicate 256 0 }).ports[(8 : PortIx)].tx.q.length ∧ (t 0x20 0x400000 {}).ports[(8 : PortIx)].handshake = true) ∧
    ((t 0x20 0 { cur := some 5 }).ports[(8 : PortIx)].tx.cur = some 5 ∧ (t 0x20 0 { cur := some 5 }).ports[(8 : PortIx)].tx.q = []) ∧
    ((t 0x22 0x40000000 {}).ports[(8 : PortIx)].md = mLoop ∧ (t 0x22 0x40000000 {}).ports[(8 : PortIx)].transmits = true ∧
      (t 0x22 0x40000000 {}).ports[(8 : PortIx)].a.range.getLsbD 30 = true ∧ (t 0x22 0x40000000 {}).ports[(8 : PortIx)].a.limits.getLsbD 5 = true) ∧
    ((t 0x20 0x80000000 { rx := some 3 }).ports[(8 : PortIx)].receives = true ∧ (t 0x20 0x80000000 { rx := some 3 }).isMeasuring 8 = false ∧
      (t 0x20 0x80000000 { rx := some 3 }).ports[(8 : PortIx)].tx.rx = some 3 ∧ (t 0x20 0x80000000 {}).ports[(8 : PortIx)].tx.rx = none) ∧
    (tPort fun x => { x with st := { x.st with f1 := true } }).ports[(8 : PortIx)].st.f1 = true := by decide +kernel

/-- Witness of CountersStepsAndPositions and GroupsSuppliesAndLevels: the step port has its pin, the second line of a quadrature pair, a transfer that
nothing broke off, and an output that the field supply holds off. -/
theorem wit_functions : let pu := tPort fun x => tMode 0x14 0 { x with c := { x.c with left := 1 } }
    let d := tPorts (tMode 0x10 0x31000000) (tMode 0x10 0x71000000)
    let o := tPort fun x => tMode 0x09 0 { x with o := { x.o with on := true, fs := true } }
    pu.pinOwn 8 = true ∧ pu.ports[(8 : PortIx)].shut = false ∧ (d.groupFrom 8 = some [(9, .cntMember)] ∧ d.ports[(9 : PortIx)].opt 27 26 ≠ 2 ∧ d.isMeasuring 9 = false) ∧
    ((tPort id).ports[(8 : PortIx)].c.ssiFail = false ∧ (tPort id).ports[(9 : PortIx)].c.flt = false) ∧
    (o.fsDependent 8 = true ∧ o.combs[combOf 8].low = false ∧ o.combs[combOf 8].fsResume = false ∧ o.ports[(8 : PortIx)].o.fs = true ∧
      o.ports[(8 : PortIx)].o.driving = false ∧ o.ports[(8 : PortIx)].o.thermWait = none) ∧ (tPort (tMode 0x09 0)).fsDependent 8 = true := by decide

/-- Witness of CharactersAreSentAndReceived: nine data bits' form, a character with its stop bit, and one without any. -/
theorem wit_character_form : let x := (tPort (tMode 0x20 0x86000044)).ports[(8 : PortIx)]
    x.opt 26 25 = 3 ∧ x.opt 29 27 = 0 ∧ x.opt 24 23 = 0 ∧ x.receives = true ∧ (x.charRead 0xFF false true false).2.2.any id = true ∧ (x.charRead 0xFF false false true).2.2.all id = false := by decide

/-- Witness of ReaderAndMarkedQueue and RewindWithoutAMarkFails: a reader with a character, with none, busy at each point, a mark behind the pointer and none. -/
theorem wit_reader : let s (q : List (BitVec 9)) (z : RdrSeq) := (tPort fun x => tMode 0x28 0 { x with tx := { x.tx with q := q } }).modComb 1 fun x => { x with seq := z }
    let e (m : Option Int) := tPort fun x => { x with ev := { x.ev with ret := [tRec], mark := m } }
    ((s [5] .idle).alive ∧ (s [5] .idle).ports[(8 : PortIx)].md = mReader ∧ (s [5] .idle).ports[(8 : PortIx)].a.runs = true ∧ (s [5] .idle).ports[(8 : PortIx)].o.held = .free ∧
      (s [5] .idle).combs[(1 : CombIx)].seq = .idle ∧ (s [5] .idle).combs[(1 : CombIx)].h = 0 ∧ (s [5] .idle).ports[(8 : PortIx)].tx.q = [5]) ∧
    (s [] .idle).ports[(8 : PortIx)].tx.q = [] ∧ ((s [] (.data 5)).combs[(1 : CombIx)].seq = .data 5 ∧ (s [] (.data 5)).combs[(1 : CombIx)].seq ≠ .idle) ∧
    (s [] .strobe).combs[(1 : CombIx)].seq = .strobe ∧ (s [] .inStrobe).combs[(1 : CombIx)].seq = .inStrobe ∧
    ((e (some 1)).ports[(8 : PortIx)].ev.mark = some ((1 : Nat) : Int) ∧ 1 ≤ (e (some 1)).ports[(8 : PortIx)].ev.ret.length) ∧
    ((e none).alive ∧ (e none).combReady (combOf 8) = true ∧ (e none).ports[(8 : PortIx)].ev.mark = none) := by decide

/-- A pair of a ready Comb in a state, with a request of an earlier frame. -/
def tPair (f : Pair → Pair) : State :=
  { (tPorts (tMode 0x03 0) (tMode 0x01 0)).modPair 4 (fun x => f { x with link := true }) with tick := { State.reset.tick with frames := 1 } }

/-- Witness of GraftRequestsAreJudged: requests of the earlier frame and of this one, with each refusal, and three that are accepted. -/
theorem wit_graft : let s (m : GMode) (v : Word) (l : Bool) := tPair fun x => { x with mode := m, req := some (v, 0), link := l }
    let ok (m : GMode) (v : Word) : Bool := decide (((s m v true).modPair 4 fun x => { x with req := none }).gRefusal 4 v = 0)
    ((s .bypass 1 true).alive ∧ (s .bypass 1 true).combReady (combOf 8) = true ∧ (s .bypass 1 true).pairs[(4 : PairIx)].req = some (1, 0) ∧ 0 < (s .bypass 1 true).tick.frames) ∧
    ok .bypass 1 = true ∧ ok .observe 0 = true ∧ ok .observe 2 = true ∧ (s .bypass 1 false).pairs[(4 : PairIx)].link = false ∧
    (s .bypass 1 true).psu.rail = true ∧ (s .arming 1 true).pairs[(4 : PairIx)].mode = .arming ∧ (s .bypass 2 true).pairs[(4 : PairIx)].closeFail = false ∧
    (fld (4 : Word) 2 0 ≤ 4 ∧ fld (0x50 : Word) 6 4 ≤ 5) ∧ 5 ≤ fld (5 : Word) 2 0 ∧ 6 ≤ fld (0x60 : Word) 6 4 ∧ (9 : PortIx).val % 2 = 1 ∧
    (tPair fun x => { x with req := some (1, 1) }).tick.frames ≤ 1 ∧ ({ tPair id with psu := { State.reset.psu with rail := false } } : State).psu.rail = false := by decide

/-- Witness of ContactsMoveThePair and BlendsEndAndTheRailFails: each state in which a contact or its silence counts, and ramps at both ends. -/
theorem wit_contacts : let s (m : GMode) (rep aux reg coil : Bool) := tPair fun x => { x with mode := m, reported := rep, auxOpen := aux, regen := reg, coil := coil }
    let b (v : Word) (r : Nat) := (tPair fun x => { x with mode := .blend, ramp := (r, 0) }).modPort 8 fun x => { x with r := { x.r with graft := v } }
    ((s .arming true true false true).pairs[(4 : PairIx)].mode = .arming ∧ (s .arming true true false true).pairs[(4 : PairIx)].reported = true) ∧
    (s .arming false true false true).pairs[(4 : PairIx)].reported = false ∧
    ((s .releasing true false true false).pairs[(4 : PairIx)].mode = .releasing ∧ (s .releasing true false true false).pairs[(4 : PairIx)].regen = true ∧
      (s .releasing true false true false).pairs[(4 : PairIx)].auxOpen = false ∧ (s .releasing true false true false).pairs[(4 : PairIx)].warmWait = false) ∧
    ((s .observe false false false true).pairs[(4 : PairIx)].auxOpen ≠ (s .observe false false false true).pairs[(4 : PairIx)].coil ∧
      (s .observe false false false true).pairs[(4 : PairIx)].closeFail = false ∧ (s .observe false false false true).pairs[(4 : PairIx)].link = true ∧
      (s .observe false false false true).bound = false ∧ (s .observe false true false true).pairs[(4 : PairIx)].auxOpen = (s .observe false true false true).pairs[(4 : PairIx)].coil) ∧
    ((b 0 32768).pairs[(4 : PairIx)].mode = .blend ∧ ((b 0 32768).graftReg 4).getLsbD 8 = false ∧ ((b 0 32768).alphaAt 4 0).1 = ((b 0 32768).alphaAt 4 0).2) ∧
    (((b 0x100 0).graftReg 4).getLsbD 8 = true ∧ ((b 0x100 0).alphaAt 4 0).1 = 0) ∧ ((b 0 0).alphaAt 4 0).1 < ((b 0 0).alphaAt 4 0).2 ∧
    (tPair id).psu.rail = true := by decide

/-! ### Host interface -/

/-- I/O queue pair 1, valid with 16 entries, over ready supplies. -/
def tQp (f : Qp → Qp) : State := State.reset.modQp 1 fun x => f { x with valid := true, dlog := 4 }
/-- HOSTQ in a state. -/
def tHq (f : Hostq → Hostq) : State := { State.reset with hq := f State.reset.hq }
/-- A completion of a command. -/
def tDone (noirq : Bool) : Done := ⟨0, 9, 7, 0, 0, 0, noirq⟩
/-- An entry of 64 bytes with an operation. -/
def tSqe (opc : Byte) : List Byte := opc :: zeros 63

/-- Witness of DoorbellsMoveTheRings: the farthest tail and one beyond it, an absent queue, the farthest head and one beyond it. -/
theorem wit_doorbells : let s := tQp id
    s.alive ∧ (s.qps[(1 : QpIx)].valid = true ∧ cdiff 16 s.qps[(1 : QpIx)].t ≤ 2 ^ s.qps[(1 : QpIx)].dlog ∧ cdiff 16 s.qps[(1 : QpIx)].f ≤ 2 ^ s.qps[(1 : QpIx)].dlog) ∧
    (16 : Word).toNat ≠ s.qps[(1 : QpIx)].t ∧ (0 : Word).toNat = s.qps[(1 : QpIx)].t ∧ ¬cdiff 17 s.qps[(1 : QpIx)].t ≤ 2 ^ s.qps[(1 : QpIx)].dlog ∧
    s.qps[(2 : QpIx)].valid = false ∧ (let y := (tQp fun x => { x with d := 3 }).qps[(1 : QpIx)]
      y.valid = true ∧ cdiff 3 y.c ≤ cdiff y.d y.c ∧ cdiff y.d y.c < cdiff 4 y.c) := by decide

/-- Witness of DoorbellsMoveTheRings: the admin queue before and after it is ready and enabled, idle and with an entry to fetch. -/
theorem wit_adm_en : let s (r e : Bool) := tHq fun h => { h with admRdy := r, admEn := e }
    ((1 : Word).getLsbD 0 = true ∧ (s true false).hq.admEn = false ∧ (s true false).hq.admRdy = true ∧ (s true false).hq.issues = true ∧ (s true false).hq.d3 = false) ∧
    (s false false).hq.admRdy = false ∧ ((0 : Word).getLsbD 0 = false ∧ (s true true).hq.admEn = true ∧ (s true true).qps[(0 : QpIx)].idle = true ∧
      (s true true).hq.running = none ∧ (s true true).hq.image = none) ∧ ((s true true).modQp 0 fun x => { x with t := 1 }).qps[(0 : QpIx)].idle = false := by decide

/-- Witness of EntriesAreFetched: a NOP and an unknown operation in the queue whose turn it is, reads refused before, and another queue's turn. -/
theorem wit_entries_fetched : let s (r : Bool) := tQp fun x => { x with t := 1, refused := r }
    ((s false).alive ∧ (s false).linkReads = true ∧ (s false).fetchN 1 = 1 ∧ (tSqe 4).length = 64) ∧
    ((s false).fetchTurn = some 1 ∧ (s false).qps[(1 : QpIx)].refused = false) ∧ entryFault (parseCmd 1 0 (tSqe 4)) (tSqe 4) = none ∧
    opcOk 1 (parseCmd 1 0 (tSqe 5)).opc = false ∧ ((s true).qps[(1 : QpIx)].refused = true ∧ (s true).fetchN 1 = 1 ∧
      ((s true).modQp 1 fun x => { x with refused := false }).fetchable 1 = true) ∧ (s false).fetchTurn ≠ some 2 := by decide +kernel

/-- Witness of CompletionsAreWritten: records with and without a request, at a threshold, a full ring with a backlog, stalled and not. -/
theorem wit_completions : let s (n : Bool) (thr : Nat) := (tQp fun x => { x with done := [tDone n], vec := 3, f := 1, t := 1 }).modVec 3 fun x => { x with thr := thr, mask := false }
    let f (st : Bool) := tQp fun x => { x with d := 16, done := [tDone true], stall := st }
    ((s true 1).alive ∧ (s true 1).hq.d3 = false ∧ (s true 1).qps[(1 : QpIx)].nextDone = some (tDone true) ∧ (s true 1).hq.issues = true ∧ (s true 1).hq.link = true) ∧
    ((s false 1).qps[(1 : QpIx)].nextDone = some (tDone false) ∧ Qp.vector 1 (s false 1).qps[(1 : QpIx)] = some 3 ∧ (s false 1).hq.vecs[(3 : VecIx)].thr ≤ 1 ∧
      (s false 1).hq.vecs[(3 : VecIx)].mask = false ∧ (s false 1).hq.fmask = false) ∧
    ((s false 2).hq.vecs[(3 : VecIx)].count + 1 < (s false 2).hq.vecs[(3 : VecIx)].thr) ∧
    ((f false).qps[(1 : QpIx)].valid = true ∧ (f false).qps[(1 : QpIx)].full = true ∧ (f false).qps[(1 : QpIx)].done ≠ [] ∧ (f false).qps[(1 : QpIx)].stall = false) ∧
    ((f true).qps[(1 : QpIx)].stall = true ∧ (f true).qps[(1 : QpIx)].faulted = false) := by decide

/-- Witness of VectorsPowerStatesAndWindow and FunctionResetsEndTheHostsWork: counted requests of an unmasked and a masked vector, a pending message, D3hot with a write that waits. -/
theorem wit_vectors : let s (m p : Bool) := State.reset.modVec 2 fun x => { x with thr := 4, count := 1, mask := m, pba := p }
    let d := tHq fun h => { h with d3 := true, pmeEn := true, held := [.data 0x1000 [1]] }
    ((s false false).alive ∧ (s false false).hq.vecs[(2 : VecIx)].count ≠ 0 ∧ 2 ≤ (s false false).hq.vecs[(2 : VecIx)].thr ∧ (s false false).hq.vecs[(2 : VecIx)].mask = false ∧
      (s false false).hq.fmask = false ∧ (s false false).hq.issues = true ∧ (s false false).hq.d3 = false) ∧ (s true false).hq.vecs[(2 : VecIx)].mask = true ∧
    (s true true).hq.vecs[(2 : VecIx)].pba = true ∧ (d.hq.d3 = true ∧ d.hq.pmeEn = true ∧ d.hq.held = [.data 0x1000 [1]] ∧ d.hq.issues = true) ∧
    (1 ≤ 512 ∧ (0xFFFFE00 : Word).toNat % 4096 + 512 ≤ 4096 ∧ (0xFFFFE00 : Word).toNat + 512 ≤ 0x10000000) := by decide

/-- Witness of VectorsPowerStatesAndWindow: no message is due and no channel waits with a write. -/
theorem wit_nothing_due : (∀ j : VecIx, State.reset.hq.vecs[j].due = false) ∧ (∀ n : ChIx, State.reset.chans[n].cont = none) :=
  ⟨fun j => congrArg Vec.due (Vector.getElem_replicate j.isLt), fun n => congrArg Chan.cont (Vector.getElem_replicate n.isLt)⟩
/-- Witness of VectorsPowerStatesAndWindow: in D3hot, a record that is next and held behind no other. -/
theorem wit_record_held : let s := { tQp fun x => { x with done := [tDone true] } with hq := { (tQp fun x => { x with done := [tDone true] }).hq with d3 := true } }
    s.alive ∧ s.hq.d3 = true ∧ s.hq.issues = true ∧ s.hq.pmeEn = false ∧ s.hq.recordsHeld 1 = 0 ∧ s.qps[(1 : QpIx)].nextDone = some (tDone true) := by decide
/-- Witness of VectorsPowerStatesAndWindow: the largest access of the payload size at reset, ending at the last byte of the window and of a page. -/
theorem wit_window_page : State.reset.alive ∧
    (1 ≤ 128 ∧ 128 ≤ 128 * 2 ^ State.reset.hq.mps ∧ (0xFFFFF80 : Word).toNat % 4096 + 128 ≤ 4096 ∧ (0xFFFFF80 : Word).toNat + 128 ≤ 0x10000000) := by decide +kernel

/-! ### The admin queue -/

/-- An entry of the admin queue, its parameters given from byte 16 on. -/
def tAdm (opc target addr : Nat) (param : List Byte) : Cmd := tCmd 0 opc target addr (param ++ zeros (48 - param.length))
/-- A state whose admin queue has a command at its front. -/
def tFront (s : State) (opc target addr : Nat) (param : List Byte) : State := tQueue s (tAdm opc target addr param)

/-- Witness of AdminCommandsComplete: the commands stand at the front of their queue, IDENTIFY at the last address it may have. -/
theorem wit_admin_front : let s := tFront State.reset
    ((tQueue State.reset (tCmd 1 0x04 0 0 [])).alive ∧ (tQueue State.reset (tCmd 1 0x04 0 0 [])).hq.running = none ∧
      (tQueue State.reset (tCmd 1 0x04 0 0 [])).qps[(1 : QpIx)].waiting = tCmd 1 0x04 0 0 [] :: []) ∧
    ((s 0x80 0 0xDFFFF000 []).hq.running = none ∧ (s 0x80 0 0xDFFFF000 []).qps[(0 : QpIx)].waiting = tAdm 0x80 0 0xDFFFF000 [] :: [] ∧ (tAdm 0x80 0 0xDFFFF000 []).q = 0) ∧
    (0xDFFFF000 + 4096 ≤ 0xE0000000) ∧ (tAdm 0x8C 0 0xDFFFFFF0 []).addr + 16 ≤ 0xE0000000 := by decide

/-- Witness of AdminCommandsComplete: a queue pair of 2 ^ 12 entries on the last vector, two that may not be made, and one idle or not. -/
theorem wit_create_qp : let c := tAdm 0x81 511 0x1000 (zeros 16 ++ [12, 0, 0, 2])
    ((1 ≤ c.target ∧ c.target < 512 ∧ State.reset.qps[(finOf 512 c.target : QpIx)].valid = false) ∧ c.addr % 4096 = 0 ∧ c.at_ 16 8 % 4096 = 0 ∧ c.at_ 24 8 % 4 = 0 ∧
      4 ≤ c.at_ 32 1 ∧ c.at_ 32 1 ≤ 12 ∧ c.at_ 34 2 ≤ 512) ∧ ((tAdm 0x81 0 0 []).target = 0 ∧ 512 ≤ (tAdm 0x81 512 0 []).target) ∧
    (tQp id).qps[(finOf 512 1 : QpIx)].valid = true ∧ (tQp id).qps[(finOf 512 1 : QpIx)].idle = true ∧
      (tQp fun x => { x with t := 1 }).qps[(finOf 512 1 : QpIx)].idle = false := by decide +kernel

/-- Witness of AdminCommandsComplete: a binding with and without a move channel, none, and a channel that is not idle. -/
theorem wit_bind_channel : let c (b m : Byte) := tAdm 0x83 5 0 [b, 2, 0, 7, m, 63]
    (State.reset.chans[(finOf 256 5 : ChIx)].state = .idle ∧ State.reset.chans[(finOf 256 5 : ChIx)].bind.mc = none) ∧ ((c 1 0).at_ 16 1 % 2 = 1 ∧ (c 1 0).at_ 20 1 % 2 = 0) ∧
    (c 0 0).at_ 16 1 % 2 = 0 ∧ ((c 1 1).at_ 20 1 % 2 = 1 ∧ State.reset.mcs[(finOf 64 ((c 1 1).at_ 21 1) : McIx)].bound = none ∧
      State.reset.mcs[(finOf 64 ((c 1 1).at_ 21 1) : McIx)].state = .idle) ∧ (tChan id).chans[(finOf 256 5 : ChIx)].state ≠ .idle := by decide +kernel

/-- Witness of AdminCommandsComplete: each feature of SET_FEATURE and GET_FEATURE, records that are acknowledged and none. -/
theorem wit_features : let c (o : Nat) (f : Byte) := tAdm o 0 0 [f, 0, 0, 2]
    ((c 0x85 2).at_ 16 1 = 0x02 ∧ (c 0x85 3).at_ 16 1 = 0x03 ∧ (c 0x85 1).at_ 16 1 = 0x01 ∧ (c 0x85 1).at_ 18 2 = 512 ∧ State.reset.hq.vecs[(finOf 513 512 : VecIx)].count = 0) ∧
    ((c 0x86 2).at_ 16 1 = 0x02 ∧ (c 0x86 3).at_ 16 1 = 0x03) ∧ State.reset.prop.ackSet 0 false = [] ∧
    ({ State.reset.prop with open4 := [(0, ⟨1, 8⟩)] }).ackSet 0 false ≠ [] := by decide +kernel

/-- Witness of RoutinesAreLoaded: a load with code for the last core of a ready cluster, a cluster that is not ready, and cores to load with the first free and busy. -/
theorem wit_load_routine : let c := tAdm 0x84 0 0x1000 [0, 0x80, 1, 3, 0, 0, 0, 0, 4]
    let r := tFront { State.reset with glb := { State.reset.glb with ncl := 0xF } } 0x84 0 0x1000 [0, 0x80, 1, 3, 0, 0, 0, 0, 4]
    let l (more : List CoreIx) := tHq fun h => { h with loading := some ⟨c, zeros 4, 3 :: more⟩ }
    (r.alive ∧ r.hq.running = none ∧ r.qps[(0 : QpIx)].waiting = c :: [] ∧ c.opc = 0x84 ∧ maskCores (c.at_ 16 2) = [15] ∧ r.nclReady (clusterOf 15) = true ∧
      c.at_ 19 1 / 2 % 2 = 1 ∧ c.addr < 2 ^ 63) ∧ State.reset.nclReady (clusterOf 15) = false ∧
    ((l [7]).hq.loading = some ⟨c, zeros 4, 3 :: [7]⟩ ∧ (l [7]).cores[(3 : CoreIx)].run = none ∧ (l [7]).cores[(3 : CoreIx)].hold = none) ∧
    ((l [7]).modCore 3 fun x => { x with run := some ⟨5, false, false, 0, false, 0⟩ }).cores[(3 : CoreIx)].run ≠ none := by decide +kernel

/-- Witness of LogsAndImagesByTheAdminQueue: a part of the fault log, the ledger without the gauge, a block of a host session, one of the other owner. -/
theorem wit_logs_images : let g (l : Byte) := tAdm 0x87 0 0x1000 [l, 0, 0, 0, 0, 0, 0, 0, 4]
    let i := tAdm 0x8A 0 0x1000 [0, 0, 1, 0, 0, 0x10]
    let s (o : Sess) (f : BitVec 3) := tFront { State.reset with cast := { State.reset.cast with owner := o, flags := f } } 0x8A 0 0x1000 [0, 0, 1, 0, 0, 0x10]
    ((g 1).at_ 16 1 ≠ 2 ∧ ((State.reset.logOf ((g 1).at_ 16 1)).drop ((g 1).at_ 20 4)).take ((g 1).at_ 24 4) ≠ [] ∧ (g 2).at_ 16 1 = 2 ∧ State.reset.glb.gauge = false) ∧
    ((s .host 7).alive ∧ (s .host 7).hq.running = none ∧ (s .host 7).qps[(0 : QpIx)].waiting = i :: [] ∧ i.opc = 0x8A ∧ i.q = 0 ∧ (s .host 7).hq.image = none ∧
      (s .host 7).psu.bind = .none ∧ (s .host 7).cast.owner = .host ∧ (s .host 7).cast.flags.getLsbD 0 = true ∧ i.addr < 2 ^ 63) ∧
    (i.at_ 20 4 = 4096 ∧ i.at_ 16 4 % 4096 = 0 ∧ i.at_ 16 4 + 4096 ≤ slotSize ∧ i.at_ 16 4 / 4096 ∉ (s .host 7).cast.staged) ∧
    (s .usb 7).cast.owner = .usb ∧ (s .host 6).cast.flags.getLsbD 0 = false ∧ (tHq fun h => { h with image := some (i, 0, 0, 0) }).hq.image = some (i, 0, 0, 0) := by
  decide +kernel

/-- Witness of LogsAndImagesByTheAdminQueue: a commit of an empty staging slot does not verify. -/
theorem wit_commit_refused : verifyCause State.reset.cast.keys (Memory.read State.reset.cast.slotA 0 (min 16 slotSize)) 16 true true ≠ 0 := by
  simp [verifyCause, imgChecks]; decide
/-- Witness of LogsAndImagesByTheAdminQueue and FunctionResetsEndTheHostsWork: a commit's flash work that enrolls a key, with one entry of the keys empty before it and every entry empty. -/
theorem wit_image_ended : let k := zeros 32
    let s (e : Cmd) := { State.reset with hq := { State.reset.hq with image := some (e, 0, 0, 0) }, cast := { State.reset.cast with before := some (State.reset.cast.nor (some k)) } }
    (s (tAdm 0x8B 0 0 [])).alive ∧ (s (tAdm 0x8B 0 0 [])).hq.image = some (tAdm 0x8B 0 0 [], 0, 0, 0) ∧ (tAdm 0x8B 0 0 []).opc = 0x8B ∧
      ((s (tAdm 0x8B 0 0 [])).cast.before.bind (·.key)) = some k ∧ (s (tAdm 0x8B 0 0 [])).cast.keys[(1 : Fin 4)] = none ∧ (∀ i : Fin 4, i < 1 → (s (tAdm 0x8B 0 0 [])).cast.keys[i] ≠ none) ∧
      State.reset.cast.before = none ∧ (tAdm 0x8A 0 0 []).opc ≠ 0x8B := by decide

/-! ### Reflex, E-stop, drive enables and Propolis -/

/-- Rule 3, enabled and armed over ready Combs: it takes hold of port 8 while E-stop is active. -/
def tRule (f : Rule → Rule) : State :=
  { (tPort (tMode 0x01 0)) with
    rx := { State.reset.rx with armed := true }
    rules := State.reset.rules.set 3 (f { en := true, evq := true, trig := 0x40000000, act := 0x30080000 }) }
/-- The REFLEX block in a state. -/
def tRx (f : Reflex → Reflex) : State := { State.reset with rx := f State.reset.rx }

/-- Witness of RulesFireAndRelease: a rule about to fire, one that has fired, and the holds that end. -/
theorem wit_rules : let s := tRule
    ((s id).alive ∧ (s id).ruleActive (s id).rules[(3 : RuleIx)] = true ∧ (s id).condTrue (s id).rules[(3 : RuleIx)] = true ∧ (s id).rules[(3 : RuleIx)].spent = false ∧
      fld (s id).rules[(3 : RuleIx)].act 3 0 = 0 ∧ (s id).rules[(3 : RuleIx)].evq = true ∧ (s id).rx.evq.length < 256) ∧
    ((s id).rules[(3 : RuleIx)].hold < 2 ∧ fld (s id).rules[(3 : RuleIx)].act 31 28 = 3 ∧ fld (s id).rules[(3 : RuleIx)].act 22 16 = (8 : PortIx).val ∧
      (s id).takesActions 8 = true ∧ groleOf (s id).ports[(8 : PortIx)] ≠ .dirMember ∧ (s id).bound = false ∧ (s id).combFenced (combOf 8) = false ∧ (s id).ports[(8 : PortIx)].owner = none ∧
      (s id).ports[(8 : PortIx)].o.held = .free ∧ (s id).rules[(0 : RuleIx)].holding = false ∧ (s id).rules[(1 : RuleIx)].holding = false ∧
      (s id).rules[(2 : RuleIx)].holding = false) ∧ (s fun x => { x with spent := true }).rules[(3 : RuleIx)].spent = true ∧
    (let y := (s fun x => { x with lock := true, holding := true }).rules[(3 : RuleIx)]; y.lock = true ∧ y.hold = 0 ∧ y.holding = true ∧ y.evq = true) ∧
    ((0x04000000 : Word).getLsbD 26 = true ∧ (0 : Word).getLsbD 26 = false ∧ fld (0x18000000 : Word) 28 27 = 3 ∧ fld (0x10000000 : Word) 28 27 ≠ 3 ∧
      (0x10000000 : Word).getLsbD 31 = false) ∧
    (let t := s fun x => { x with hold := 1, holding := true, trig := 0 }; t.rules[(3 : RuleIx)].hold = 1 ∧ t.rules[(3 : RuleIx)].holding = true ∧ t.condTrue t.rules[(3 : RuleIx)] = false) ∧
    (let t := s fun x => { x with trig := 0x20080000, thresh := 0x1000 }; fld t.rules[(3 : RuleIx)].trig 31 28 = 2 ∧ t.rules[(3 : RuleIx)].en = true ∧
      sfld t.rules[(3 : RuleIx)].thresh 20 = 0x1000 ∧ (0x1000 : Int) + 256 ≤ 0x1100 ∧ (0xEFF : Int) < 0x1000 - 256 ∧ (0x1000 : Int) - 256 ≤ 0xF00 ∧ (0x10FF : Int) < 0x1000 + 256) := by decide

/-- Witness of EstopAndDriveEnables: the inputs open, closed and apart, E-stop active and not, and writes of REFLEX_DE that open and close. -/
theorem wit_estop : let r (e : Bool) (raw : Bool × Bool) (c : BitVec 4) := tRx fun x => { x with estop := e, raw := raw, closed := raw, armed := true, coil := c }
    ((r true (true, true) 0).alive ∧ (r true (true, true) 0).rx.disc = false ∧ (r true (true, true) 0).rx.estop = true ∧ (r true (true, true) 0).rx.closed = (true, true) ∧
      (r true (true, true) 0).rx.raw = (true, true) ∧ (r true (true, true) 0).rx.evq.length < 256 ∧ (0x80000000 : Word).getLsbD 31 = true) ∧
    ((r false (true, false) 0).rx.estop = false ∧ (r false (true, false) 0).rx.raw.2 = false ∧ (r false (true, false) 0).rx.raw.1 ≠ (r false (true, false) 0).rx.raw.2 ∧
      ¬((r false (true, false) 0).rx.closed = (true, true))) ∧ ((r true (true, true) 0).rx.deDis.getLsbD 3 = false) ∧
    (BitVec.ofNat 4 (fld (0xF0000 : Word) 15 12) = 0 ∧ BitVec.ofNat 4 (fld (0xF0000 : Word) 19 16) ≠ 0 ∧ (r true (true, true) 0).rx.estop = true) ∧
    (BitVec.ofNat 4 (fld (0x8000 : Word) 19 16) = 0 ∧ (r false (true, true) 8).rx.coil &&& BitVec.ofNat 4 (fld (0x8000 : Word) 15 12) ≠ 0 ∧
      (r false (true, true) 8).rx.evq.length < 256) := by decide

/-- Witness of EstopAndDriveEnables: nothing holds a drive enable open. -/
theorem wit_close : let s := tRx fun x => { x with estop := false, armed := true }
    s.rx.estop = false ∧ s.rx.armed = true ∧ s.rx.deFired.1 = s.now ∧ (0xF#4 &&& s.rx.deFired.2) = 0 ∧ s.prop.grave = false ∧ s.bound = false ∧ (0xF#4 &&& (s.heldOpen ||| s.rx.deDis)) = 0 := by decide +kernel

/-- Witness of EstopAndDriveEnables: a rule has fired drive enable 1 at this moment; drive enables with open relays whose contact disagrees. -/
theorem wit_close_fired : let s := tRx fun x => { x with estop := false, armed := true, deFired := (0, 2) }
    s.rx.deFired.1 = s.now ∧ ((0x3#4 &&& s.rx.deFired.2) ≠ 0) ∧ BitVec.ofNat 4 (fld (0x30000 : Word) 15 12) = 0 ∧ BitVec.ofNat 4 (fld (0x30000 : Word) 19 16) = 3 ∧
      s.rx.coil.getLsbD 3 = false ∧ s.rx.deDis.getLsbD 3 = false ∧ s.rx.evq.length < 256 := by decide

/-- A state with one report waiting and a map entry for its cause. -/
def tReport (ut ix cause cls : Nat) : State :=
  { State.reset with prop := { State.reset.prop with reports := [⟨⟨ut, ix⟩, cause, 0, 0, 0, none⟩], cmap := [(cause, cls, false)] } }

/-- Witness of ReportsHaveTheirReaction: reports of class 0, of class 2 by channel 5, and of class 5. -/
theorem wit_reports : let r (ut ix cause : Nat) : Report := ⟨⟨ut, ix⟩, cause, 0, 0, 0, none⟩
    ((tReport 0x08 5 0x41 0).alive ∧ (tReport 0x08 5 0x41 0).nextReport = some (r 0x08 5 0x41) ∧ (tReport 0x08 5 0x41 0).prop.log.length < 1024 ∧
      (tReport 0x08 5 0x41 0).classOf 0x41 = (0, false) ∧ 1 ≤ (tReport 0x08 5 0x41 0).prop.irqMin) ∧
    (((tReport 0x08 5 0x41 2).classOf 0x41).1 = 2 ∧ (tReport 0x08 5 0x41 2).nextReport = some (r 0x08 5 0x41) ∧ ((tReport 0x08 5 0x41 2).punit ⟨0x08, (5 : ChIx).val⟩).slots = [] ∧
      (tReport 0x08 5 0x41 2).fencedObj (.chan 5) = false ∧ (tReport 0x08 5 0x41 2).chans[(5 : ChIx)].state ≠ .fenced) ∧
    (((tReport 0x05 2 0xF0 5).classOf 0xF0).1 = 5 ∧ (tReport 0x05 2 0xF0 5).nextReport = some (r 0x05 2 0xF0) ∧ (tReport 0x05 2 0xF0 5).prop.grave = false) := by decide

/-- Witness of RecoveryAndInjection: units of a class that recovers and of those that do not, tokens in and beyond local memory, an injection with the strap. -/
theorem wit_recovery : let s (c : Nat) := { State.reset with prop := { State.reset.prop with units := [⟨⟨1, 8⟩, [], c, 0, []⟩] } }
    let i (st un : Bool) := { State.reset with prop := { State.reset.prop with strap := st, unlocked := un, inj := 0x41080005 } }
    ((s 3).alive ∧ 1 ≤ ((s 3).punit ⟨1, 8⟩).cls ∧ ((s 3).punit ⟨1, 8⟩).cls ≤ 3 ∧ ((s 3).punit ⟨1, 8⟩).level = [] ∧ (∀ y, y ∈ (s 3).prop.reports → y.u ≠ ⟨1, 8⟩)) ∧
    (((s 0).punit ⟨1, 8⟩).cls = 0 ∧ ((s 5).punit ⟨1, 8⟩).cls = 5) ∧ ((0x40000000 : Word).getLsbD 31 = false ∧ (0x40000000 : Word).getLsbD 30 = true ∧
      State.reset.prop.tok.toNat + 128 ≤ 0xE0000000 ∧ tokenOk (Memory.read State.reset.lmem State.reset.prop.tok.toNat 128) = false) ∧
    ((0x8000000A : Word).getLsbD 31 = true ∧ (0x8000000A : Word).getLsbD 30 = false ∧ (i true true).prop.strap = true ∧ (i true true).prop.unlocked = true ∧
      (i true true).injOk (if (0x8000000A : Word).getLsbD 3 then some (fld (0x8000000A : Word) 2 0) else none) = true ∧ (i false true).prop.strap = false) := by decide

/-- Witness of RecoveryAndInjection: the token is valid where its signature is (ECDSA is uninterpreted, log entry 10). -/
theorem wit_token (sig : List Byte) (hs : sig.length = 64) : let body := ascii "PTOK" ++ Config.serial.toList ++ zeros 44
    Config.ecdsaOk Config.factoryKey.toList (Config.sha256 body) sig = true → tokenOk (body ++ sig) = true := by
  intro body h
  have h1 : body.length = 64 := by simp [body, zeros, ascii]
  have e1 : slice (body ++ sig) 0 64 = body := by simp [slice, ← h1]
  have e2 : slice (body ++ sig) 64 64 = sig := by rw [slice, ← h1, List.drop_left]; simp [h1, hs]
  have e3 : slice (body ++ sig) 0 4 = ascii "PTOK" := by simp [slice, body, ascii]
  have e4 : slice (body ++ sig) 4 16 = Config.serial.toList := by simp [slice, body, ascii]
  have e5 : slice (body ++ sig) 20 44 = zeros 44 := by simp [slice, body, ascii, zeros]
  simp [tokenOk, e1, e2, e3, e4, e5, h]

/-- Witness of UnitsReportTheirFaults: the module runs. -/
theorem wit_primary_ov : State.reset.alive ∧ State.reset.psu.bind = .none := by decide

/-! ### Fanning and the mains unit -/

/-- The mains unit in a state. -/
def tPsu (f : Psu → Psu) : State := { State.reset with psu := f State.reset.psu }
/-- Fanning in a state. -/
def tFan (f : Fan → Fan) : State := { State.reset with fan := f State.reset.fan }

/-- Witness of BindOffRunsInSteps: each step of Bind-off in its turn. -/
theorem wit_bind_off : (tPsu id).alive ∧ (tPsu id).psu.bind = .none ∧ (let b (x : BindOff) := tPsu fun p => { p with bind := x }
    (b .begun).alive ∧ (b .begun).psu.bind = .begun ∧ (b .begun).psu.bind ≠ .none ∧ (b .quiet).psu.bind = .quiet ∧ (b .combsOff).alive ∧ (b .combsOff).psu.bind = .combsOff) := by decide

/-- A set of temperatures in 0.125 °C, all alike. -/
def tTemps (t : Int) : Vector Int 24 := Vector.replicate 24 t

/-- Witness of PowerAndTemperatureAreJudged: temperatures at the softest limit, beyond it and at the shut-down, loads at and beyond what the mains unit holds. -/
theorem wit_power : let f (t : Int) : Fan := { State.reset.fan with temp := (tTemps t).map (clampI (-32768) 32767) }
    let l (p : BitVec 16) := tPsu fun x => { x with pout := p }
    ((f 760).tHot < 840 ∧ (f 839).tHot < 840 ∧ 8 * ((f 839).soft : Int) < (f 839).tHot ∧ (f 839).thermSoft = false ∧ (f 839).temp[(4 : Fin 24)] = (f 839).tHot ∧ 840 ≤ (f 840).tHot) ∧
    ((l 5000).alive ∧ (l 5000).fan.overload = false ∧ (l 5000).pMains < ((l 5000).psu.pout.toNat : Int) ∧ ((l 100).psu.pout.toNat : Int) ≤ (l 100).pMains) ∧
    (tFan fun x => { x with negN := 1024 }).fan.overdraw = false ∧ 1024 ≤ (tFan fun x => { x with negN := 1024 }).fan.negN ∧
    ((tFan fun x => { x with duty := 30 }).fan.fanFail = false ∧ (tFan fun x => { x with duty := 30 }).fan.duty ≠ 0) ∧ (tFan fun x => { x with fanFail := true }).fan.fanFail = true := by
  decide +kernel

/-- Witness of PowerAndTemperatureAreJudged: v_need is met at 330 V and at 390 V by the capacitors of reset at no load, and the hold-up power is not nothing. -/
theorem wit_v_need : vNeedLe 0 2000 500 3300 = true ∧ vNeedLe (10 * 1) 2000 500 3900 = true ∧ vNeedLe 60000 2000 500 3900 = false := by decide

/-- Witness of DomainsAreRequested: requests that are discarded and one that is accepted, of a domain on and of one off. -/
theorem wit_domain_requests : let s := tFan fun x => { x with req := 0x20, dom := x.dom.set 5 .off }
    let busy := s.modPort 8 fun x => { x with r := { x.r with mode := 1 } }
    (s.alive ∧ (0x101 : Word) &&& 0xFF01 ≠ 0 ∧ (0x20000 : Word).getLsbD (16 + (1 : CombIx).val) = true ∧ busy.combMayRest 1 = false) ∧
    ((0x20040 : Word) &&& 0xFF01 = 0 ∧ s.combMayRest 1 = true ∧ (∀ c : CombIx, (0x20040 : Word).getLsbD (16 + c.val) = true → c = 1)) ∧
    ((0x20040 : Word).getLsbD 6 = true ∧ s.fan.req.getLsbD 6 = false ∧ s.fan.dom[(6 : Fin 32)] = .on) ∧
    ((0x20040 : Word).getLsbD 5 = false ∧ s.fan.req.getLsbD 5 = true ∧ s.fan.dom[(5 : Fin 32)] = .off) ∧ (0x20040 : Word).getLsbD 4 = s.fan.req.getLsbD 4 := by decide

/-- Witness of DomainsDrainAndComeUp: a Comb's and a cluster's domain draining, empty and with a routine, a domain rising, and domains due for gating. -/
theorem wit_domains : let d (n : Fin 32) (x : Dom) := tFan fun f => { f with dom := f.dom.set n x }
    let b := (d 1 .draining).modCore 0 fun x => { x with run := some ⟨5, false, false, 0, false, 0⟩ }
    ((d 17 .draining).alive ∧ (d 17 .draining).fan.dom[(17 : Fin 32)] = .draining ∧ (d 17 .draining).drained 17 = true ∧ (17 : Fin 32).val = 16 + (1 : CombIx).val) ∧
    (b.fan.dom[(1 : Fin 32)] = .draining ∧ b.drained 1 = false ∧ (clusterOf 0).val + 1 = (1 : Fin 32).val ∧ b.cores[(0 : CoreIx)].run = some ⟨5, false, false, 0, false, 0⟩ ∧
      b.chans[(5 : ChIx)].halting = false) ∧ (d 3 .rising).fan.dom[(3 : Fin 32)] = .rising ∧
    (let g := tFan fun x => { x with autoGate := true, passN := (1024, 1024, 1024, 0) };
      g.fan.dom[(4 : Fin 32)] = .on ∧ g.fan.autoGate = true ∧ 1024 ≤ g.fan.passN.1 ∧ 1024 ≤ g.fan.passN.2.1 ∧ g.fan.dom[(6 : Fin 32)] = .on) ∧
    (let u := tFan fun x => { x with auto := 0x20, passN := (0, 0, 1024, 0), dom := x.dom.set 5 .off };
      u.fan.dom[(5 : Fin 32)] = .off ∧ u.fan.auto.getLsbD 5 = true ∧ 1024 ≤ u.fan.passN.2.2.1) ∧
    (let u := tFan fun x => { x with auto := 0x40, passN := (0, 0, 0, 1024), dom := x.dom.set 6 .off };
      u.fan.dom[(6 : Fin 32)] = .off ∧ u.fan.auto.getLsbD 6 = true ∧ 1024 ≤ u.fan.passN.2.2.2) := by decide +kernel

/-- Witness of DomainsDrainAndComeUp: no move program and no bound channel names cluster 3. -/
theorem wit_auto_gate : State.reset.movesName 4 = false ∧ ∀ i : ChIx, State.reset.chans[i].bind.bound = false :=
  ⟨by decide +kernel, fun i => congrArg (fun x : Chan => x.bind.bound) (Vector.getElem_replicate i.isLt)⟩

/-! ### Gauge -/

/-- Gauge in a state whose GAUGE bit is set. -/
def tGauge (f : Gauge → Gauge) : State := { tFan id with gauge := f State.reset.gauge, glb := { State.reset.glb with gauge := true, comb := 0xFFFF } }

/-- A ledger entry of a sequence number. -/
def tLedger (n : Nat) : LEntry :=
  ⟨n, 1, 9, 3, 0, (2000, 500), Vector.replicate 16 0, Vector.replicate 16 0, Vector.replicate 4 (0, 0, 0), (0, false), (0, 0), (0, 0), [], (0xFFFF, 0), 0⟩

/-- Witness of CapacitorsAreMeasured: a measurement under its conditions at each end of its ranges, one that is not allowed, and one that runs. -/
theorem wit_cap : let s (p v : BitVec 16) := { tGauge id with psu := { State.reset.psu with pout := p, vbus := v, steady := true } }
    let ok (x : State) : Bool := x.psu.steady && x.psu.mainsOk && !x.psu.pfw && decide (200 ≤ x.psu.pout.toNat) && decide (x.psu.pout.toNat ≤ 2000) && decide (3950 ≤ x.psu.vbus.toNat) &&
      decide (x.psu.vbus.toNat ≤ 4050) && decide (x.vEnd ≤ 3920)
    let r (p : BitVec 16) := { s p 3990 with gauge := { (tGauge id).gauge with capRun := .running 4000 (some 500), capLoad := 2000, capFails := 6 } }
    let held (x : State) : Bool := decide (95 * x.gauge.capLoad ≤ 100 * x.psu.pout.toNat) && decide (100 * x.psu.pout.toNat ≤ 105 * x.gauge.capLoad)
    ((s 200 3950).alive ∧ (s 200 3950).psu.bind = .none ∧ (s 200 3950).gauge.capEn = true ∧ (s 200 3950).gauge.capRun = .idle ∧ (s 200 3950).glb.gauge = true ∧ ok (s 200 3950) = true ∧
      ok (s 2000 4050) = true ∧ ok (s 199 4000) = false) ∧
    ((r 1900).gauge.capRun = .running 4000 (some 500) ∧ (r 1900).psu.mainsOk = true ∧ (r 1900).gauge.capFails = 6 ∧ held (r 1900) = true ∧ held (r 2100) = true ∧
      held (r 2101) = false ∧ (r 1900).vEnd ≤ 3920 ∧ 1499 < 1500 ∧ 1500 ≤ (r 1900).psu.cap) := by decide

/-- Witness of MarginsFollowTheMeasurements: a Comb that is ready and one that is not, delays at and beyond 8.0 ns, slacks at their limits at the highest supply. -/
theorem wit_margins : let s := tGauge fun g => { g with volt := g.volt.set 2 90 }
    (s.alive ∧ s.glb.gauge = true ∧ s.combSkipped 1 = false ∧ ({ s with glb := { s.glb with comb := 0 } } : State).combSkipped 1 = true) ∧
    (32 < (33 : Byte).toNat ∧ ¬32 < (32 : Byte).toNat ∧ s.gauge.isoLow.getLsbD 1 = false) ∧
    ((79 : BitVec 16).toNat < 80 ∧ s.gauge.volt[(2 : Fin 4)] = 90 ∧ s.gauge.margin.getLsbD 2 = false ∧ clusterOf 8 = 2 ∧ 80 ≤ (80 : BitVec 16).toNat) ∧
    (200 < (clampI (-32768) 32767 (-201)).natAbs ∧ (s.gauge.zen[(1 : CombIx)]).natAbs ≤ 200) := by decide

/-- Witness of TheLedgerIsKeptAndRecovered: a minute that ends the cool day, follower and other ticks, a queue with an entry, and every pair of copies. -/
theorem wit_ledger : let e := tLedger 5
    let s (g : Bool) (a b : List LEntry) := { tGauge fun x => { x with copy0 := a, copy1 := b, queue := a, coolMin := 1439, pos := (1, 0) } with glb := { State.reset.glb with gauge := g } }
    let fo := { tGauge id with tick := { State.reset.tick with role := .follower, discEn := true } }
    ((s true [e] []).alive ∧ (s true [e] []).psu.bind = .none ∧ (s true [e] []).glb.gauge = true ∧ 1439 ≤ (s true [e] []).gauge.coolMin ∧ (∀ k : Fin 4, (s true [e] []).gauge.volt[k] ≤ 88)) ∧
    (fo.glb.gauge = true ∧ fo.tick.role = .follower ∧ fo.tick.discEn = true ∧ (s true [] []).tick.role ≠ .follower ∧ (s true [] []).gauge.queue = []) ∧
    ((s true [e] []).gauge.queue = [e] ∧ (s true [e] []).gauge.pos.1 % 256 ≠ 0 ∧ (s true [e] []).gauge.pos.2 % 256 = 0) ∧
    ((s false [e] [tLedger 4]).glb.gauge = false ∧ (s false [e] [tLedger 4]).gauge.copy0.getLast? = some e ∧
      (s false [e] [tLedger 4]).gauge.copy1.getLast?.all (fun y => y.seq < e.seq) = true ∧ 0 < e.seq) ∧
    ((s false [e] [e]).gauge.copy1.getLast?.map (·.seq) = some e.seq ∧ (s false [] []).gauge.copy0 = [] ∧ (s false [] []).gauge.copy1 = []) := by decide

/-! ### Cast-on, restart, the service port, the mezzanine card -/

/-- Cast-on in a state with an image running. -/
def tCast (f : Caston → Caston) : State := { (tPort id) with cast := f State.reset.cast }

/-- Witness of PowerUpAndTheRunningImage: supplies that are off, and a bring-up with no candidate. -/
theorem wit_power_up : (tPsu fun p => { p with bind := .off, lastOff := 2 }).psu.bind = .off ∧ (tPsu fun p => { p with bind := .off, lastOff := 2 }).psu.lastOff = 2 ∧
    (State.reset.psu.bind = .none ∧ State.reset.glb.image = false ∧ State.reset.cast.booting = true ∧ State.reset.cast.noImage = false) ∧
    (State.reset.verifySlots State.reset.candidates false).1 = none ∧ ((tPort id).alive ∧ (tPort id).glb.image = true) := by decide

/-- Witness of PowerUpAndTheRunningImage: a candidate that passes every check is taken (SHA-256 and ECDSA are uninterpreted, log entry 10). -/
theorem wit_verified (s : State) (b : Bool) (l : List Bool) (r : CRec) (hr : s.slotRec b = some r)
    (h : let bytes := Memory.read (s.cast.slot b) 0 (Nat.min r.len slotSize)
      verifyCause s.cast.keys bytes (Nat.min r.len slotSize) (imgDigest bytes (Nat.min r.len slotSize) == r.digest) true = 0) :
    (s.verifySlots (b :: l) false).1 = some (b, Memory.read (s.cast.slot b) 0 (Nat.min r.len slotSize)) := by
  simp only [State.verifySlots, hr, Option.map_some, Option.getD_some, Bool.not_false]
  rw [if_pos h]

/-- Witness of FunctionsComeUp: calibration due, a Comb whose coefficients come in force, local memory to be cleared, firmware that runs and halts. -/
theorem wit_come_up : let s (b : Bool) := { (tCast fun c => { c with booting := b }) with glb := { State.reset.glb with image := true, tick := true } }
    ((s true).alive ∧ (s true).psu.bind = .none ∧ (s true).glb.image = true ∧ (s true).cast.booting = true) ∧
    ((s false).glb.tick = true ∧ (s false).fan.dom[(finOf 32 (16 + (1 : CombIx).val) : Fin 32)] = .on ∧ (s false).combReady 1 = false ∧ (s false).cast.booting = false ∧ (s false).tick.phase = .edge ∧
      (s false).cast.calib.getLsbD 1 = false) ∧ ({ (s false) with cast := { (s false).cast with calib := 0xFFFF } } : State).cast.calib.getLsbD 1 = true ∧
    ((s false).glb.move = false ∧ (s false).cast.restarting = false) ∧ (s false).firmware = true ∧ State.reset.firmware = false ∧ fld (40 : Word) 7 0 ≤ 40 := by decide

/-- Witness of RestartAndWarmReset: writes that name neither, both, one with the key and one without it, and a restart in progress. -/
theorem wit_restart : let s := tCast id
    (s.alive ∧ (0xC3000100 : Word).getLsbD 1 = false ∧ (0xC3000100 : Word).getLsbD 0 = false) ∧ (0xC3000003 : Word).getLsbD 1 = (0xC3000003 : Word).getLsbD 0 ∧
    fld (0x00000001 : Word) 31 24 ≠ 0xC3 ∧ (fld (0xC3000002 : Word) 31 24 = 0xC3 ∧ (0xC3000002 : Word).getLsbD 1 ≠ (0xC3000002 : Word).getLsbD 0 ∧ s.cast.restarting = false ∧
      s.psu.bind = .none ∧ (0xC3000002 : Word).getLsbD 1 = true ∧ s.prop.grave = false) ∧ (fld (0xC3000001 : Word) 31 24 = 0xC3 ∧ (0xC3000001 : Word).getLsbD 0 = true) ∧
    (tCast fun c => { c with restarting := true }).cast.restarting = true ∧ s.cast.before = none := by decide

/-- A request of the service port of 32 bytes: its operation, offset and length. -/
def tUsb (opc : Byte) (ofs len : Nat) (lid : Byte) : List Byte := opc :: zeros 3 ++ leBytes 4 ofs ++ leBytes 4 len ++ [lid] ++ zeros 19

/-- Witness of TheServicePortAndALossOfSupplies: requests that are refused and carried out, the last block of a slot in a session of the port. -/
theorem wit_usb : let s (o : Sess) := tCast fun c => { c with owner := o }
    ((s .usb).alive ∧ (s .usb).cast.flags.getLsbD 1 = true ∧ (tUsb 0x80 0 0 0).length = 32 ∧ (s .usb).usbRefused (tUsb 0x80 0 0 0) = none ∧ leAt (tUsb 0x80 0 0 0) 0 1 = 0x80) ∧
    ((s .usb).usbRefused (tUsb 0x87 0 1048576 1) = none ∧ (s .usb).usbRefused (tUsb 0x8A 0x3FF000 4096 0) = none ∧ leAt (tUsb 0x8A 0x3FF000 4096 0) 8 4 = 4096 ∧
      (s .usb).usbRefused (tUsb 0x8B 0 16 0) = none ∧ (s .usb).psu.bind = .none ∧ (s .usb).cast.owner = .usb ∧ (s .none).cast.owner ≠ .usb ∧ (s .usb).cast.before = none ∧ (s .usb).gauge.queue = []) ∧
    ((s .usb).usbRefused (tUsb 0x81 0 0 0) = some (1, 0) ∧ leAt (tUsb 0x81 0 0 0) 0 1 ∉ [0x80, 0x87, 0x8A, 0x8B] ∧ (s .usb).usbRefused (tUsb 0x80 0 0 1) = none ∧
      (s .usb).usbRefused (tUsb 0x87 0 4 0) = some (2, 12) ∧ (s .usb).usbRefused (tUsb 0x8A 0x3FF000 8192 0) = some (3, 4) ∧ (s .host).usbRefused (tUsb 0x8B 0 16 0) = some (5, 0)) ∧
    (tCast fun c => { c with flags := 0 }).cast.flags.getLsbD 1 = false := by decide +kernel

/-- Witness of TheCardIsIdentifiedAndRemoved: a card in domain 7 when it is on and off, a core held by a transaction, an answer that is not DONE. -/
theorem wit_card : let s := { (State.reset.modCore 3 fun c => { c with hold := some (.mezz 7 1 2 3 4 true), tr := { c.tr with en := true, tvec := 0x100 } }) with
      mezz := { State.reset.mezz with fitted := true, bus := some 3 } }
    let off := tFan fun f => { f with dom := f.dom.set 7 .off }
    (s.alive ∧ s.psu.bind = .none ∧ s.fan.dom[(7 : Fin 32)] = .on ∧ s.mezz.fitted = true ∧ s.mezz.rel = none ∧ s.mzHeld = [(3, 1)] ∧
      s.cores[(3 : CoreIx)].hold = some (.mezz 7 1 2 3 4 true) ∧ s.cores[(3 : CoreIx)].slot = none ∧ s.cores[(3 : CoreIx)].tr.en = true ∧ s.cores[(3 : CoreIx)].tr.inTrap = false) ∧
    off.fan.dom[(7 : Fin 32)] = .off ∧ (1 : BitVec 2) ≠ 0 := by decide

/-! ### The machine -/

/-- Witness of StepRunsTheFrontCommand: a queue with a command, and an empty one. -/
theorem wit_step : ({ State.reset with pending := [.strapFitted] } : State).pending = .strapFitted :: [] ∧ State.reset.pending = [] := by decide

/-- Witness of the statements about every step (NoStepEnergisesACoilWithoutALink, LinkRelaysMoveAtStartUpOnly, EveryStepKeepsMemoriesCanonical): a step from reset with a command at its front answers, its memories are canonical and no coil is open-linked. -/
theorem wit_invariants : step { State.reset with pending := [.strapFitted] } = .next { State.reset with prop := { State.reset.prop with strap := true } } ∧
    ({ State.reset with pending := [.strapFitted] } : State).canonical ∧ ({ State.reset with pending := [.strapFitted] } : State).coilsLinked ∧
    Instr.strapFitted ≠ .startUpCalibration := by
  refine ⟨rfl, wit_canonical, fun j h => ?_, by decide⟩
  have e : State.reset.pairs[j] = {} := Vector.getElem_replicate j.isLt
  exact absurd (e ▸ h : (({} : Pair).coil = true)) (by decide)

/-- Witness of WrittenKeySlotsStay: key slot 0 is written at reset. -/
theorem wit_keys : State.reset.cast.keys[(0 : Fin 4)] = some Config.releaseKeyDigest.toList := rfl

/-! ### Well-formed commands: each check refuses a term that breaks it -/

theorem smoke_register_write : Instr.wf (.registerWrite .host ⟨.bar0, 0x1000⟩ 24 0) = false ∧ Instr.wf (.registerWrite .host ⟨.bar0, 0x1000⟩ 32 0) = true := by decide
theorem smoke_rclr_read : Instr.wf (.rclrRead .host ⟨.bar0, 0x1000⟩ 0) = false ∧ Instr.wf (.rclrRead .host ⟨.bar0, 0x1000⟩ 8) = true := by decide
theorem smoke_pc_evq_pop : Instr.wf (.pcEvqPop .host 3 48) = false ∧ Instr.wf (.pcEvqPop .host 3 64) = true := by decide
theorem smoke_reflex_evq_pop : Instr.wf (.reflexEvqPop .host 128) = false ∧ Instr.wf (.reflexEvqPop .host 64) = true := by decide
theorem smoke_cce_fetch : Instr.wf (.cceFetch 3 (.ok (zeros 15))) = false ∧ Instr.wf (.cceFetch 3 (.ok (zeros 16))) = true ∧ Instr.wf (.cceFetch 3 .ecc) = true := by decide
theorem smoke_descriptor_fetch : Instr.wf (.descriptorFetch 3 (.ok (zeros 33))) = false ∧ Instr.wf (.descriptorFetch 3 (.ok (zeros 32))) = true := by decide
theorem smoke_sq_fetch : Instr.wf (.sqFetch 1 (.ok (zeros 100))) = false ∧ Instr.wf (.sqFetch 1 (.ok (zeros 256))) = true := by decide +kernel
theorem smoke_sq_read_retry : Instr.wf (.sqReadRetry 1 (.ok [])) = false ∧ Instr.wf (.sqReadRetry 1 (.ok (zeros 64))) = true := by decide
theorem smoke_scopy : Instr.wf (.scopy 0 3 false true) = false ∧ Instr.wf (.scopy 0 2 false true) = true := by decide
theorem smoke_sfill : Instr.wf (.sfill 0 3 1 5) = false ∧ Instr.wf (.sfill 0 0 1 5) = true := by decide
theorem smoke_scmp : Instr.wf (.scmp 0 3 false true 5 false) = false ∧ Instr.wf (.scmp 0 1 false true 5 false) = true := by decide
theorem smoke_sseek : Instr.wf (.sseek 0 3 false true 5 6 false) = false ∧ Instr.wf (.sseek 0 1 false true 5 6 false) = true := by decide
theorem smoke_usb_request : Instr.wf (.usbRequest (zeros 31) []) = false ∧ Instr.wf (.usbRequest (zeros 32) []) = true := by decide

/-! ### One command each, on values that the manual's examples or a calculation by hand give -/

/-- What one command leaves, seen through f; `none` where it stops. -/
def tAfter {α : Type} (c : Instr) (s : State) (f : State → α) : Option α := match exec c s with
  | .next t => some (f t)
  | _ => none

/-- Register r of core 3. -/
def tReg (r : BitVec 5) (s : State) : Word := s.cores[(3 : CoreIx)].rd r

/-- 0x80000000 + 0x80000001 wraps to 1; the signed high product of -1 and -1 is 0; the unsigned one is 0xFFFFFFFE. -/
theorem test_arithmetic : let s (a b : Word) := tCore fun c => (c.wr 5 a).wr 6 b
    tAfter (.add 3 7 5 6) (s 0x80000000 0x80000001) (tReg 7) = some 1 ∧ tAfter (.adds 3 7 5 6) (s 0x80000000 0xFFFFFFFF) (tReg 7) = some 0x80000000 ∧
    tAfter (.sra 3 7 5 6) (s 0x80000000 31) (tReg 7) = some 0xFFFFFFFF ∧ tAfter (.add 3 0 5 6) (s 1 1) (tReg 0) = some 0 := by decide

/-- A multiply's result lands after its distance: the next instruction still reads the old value (R235, R236). -/
theorem test_late_result : tAfter (.mul 3 5 5 5) (tCore fun c => c.wr 5 3) (tReg 5) = some 3 := by decide

/-- Chapter 08's example: the instruction after a load reads g8 = 2, then g9 = 3. -/
theorem test_addi_before_the_load_lands : let s := tCore fun c => { (c.wr 8 2).later 8 7 4 with pc := 0x204 }
    tAfter (.addi 3 9 8 1) s (tReg 9) = some 3 := by decide

/-- Chapter 07's examples: a ring of 64 bytes closes; the bit-reversed table steps 0, 16, 8 and from 28 to 0. -/
theorem test_windows : let s (a cfg base : Word) := tCore fun c => { c.wr 21 a with cr := { c.cr with mwBase := c.cr.mwBase.set 1 base, mwCfg := c.cr.mwCfg.set 1 cfg } }
    tAfter (.swP 3 6 21 4) (s 0x403C 0x86 0x4000) (tReg 21) = some 0x4000 ∧ tAfter (.lwP 3 6 21 16) (s 0x2000 0x2C5 0x2000) (tReg 21) = some 0x2010 ∧
    tAfter (.lwP 3 6 21 16) (s 0x2010 0x2C5 0x2000) (tReg 21) = some 0x2008 ∧ tAfter (.lwP 3 6 21 16) (s 0x201C 0x2C5 0x2000) (tReg 21) = some 0x2000 := by decide

/-- A branch taken back by 2 words goes there after its delay slot: the next instruction is the one behind it. -/
theorem test_branch : tAfter (.beq 3 0 0 (-2)) (tCore id) (fun t => (t.cores[(3 : CoreIx)].pc, t.cores[(3 : CoreIx)].slot.isSome)) = some (0x204, true) := by decide

/-- Chapter 03's example: port 20 takes its limits at 0x01021800 + 0x08. -/
theorem test_port_20 : tAfter (.registerWrite .host ⟨.bar0, 0x01021808⟩ 32 0x0430322A) (tPort id) (fun t => t.ports[(20 : PortIx)].r.limits) = some 0x0430322A := by decide

/-- Chapter 12's example: rule 4 lies at 0x00400080, its trigger at +4. A rule on E-stop with ACT HIZ counts its fire and takes its pin at once. -/
theorem test_rules : tAfter (.registerWrite .host ⟨.bar0, 0x00400084⟩ 32 0x30000000) (tPort id) (fun t => t.rules[(4 : RuleIx)].trig) = some 0x30000000 ∧
    tAfter (.fire 3) (tRule id) (fun t => (t.rules[(3 : RuleIx)].fires, t.rules[(3 : RuleIx)].holding, t.ports[(8 : PortIx)].o.held)) = some (1, true, .hiz) := by decide +kernel

/-- Chapter 11's example: the tail of queue pair 3 at 0x001000C0, and IRQ_MOD of 200 µs and 8 requests on vector 3. -/
theorem test_doorbell : tAfter (.registerWrite .host ⟨.bar0, 0x001000C0⟩ 32 2) (State.reset.modQp 3 fun x => { x with valid := true, dlog := 6 }) (fun t => t.qps[(3 : QpIx)].t) = some 2 ∧
    tAfter .setFeature (tFront State.reset 0x85 0 0 [1, 0, 3, 0, 8, 0xC8, 0, 0]) (fun t => (t.hq.vecs[(3 : VecIx)].thr, t.hq.vecs[(3 : VecIx)].time)) = some (8, 200) := by decide

/-- Chapter 11's example: CREATE_QP makes queue pair 3 of 64 entries on vector 3. -/
theorem test_create_qp : tAfter .createQp (tFront State.reset 0x81 3 0x140000000 ([0, 0, 1, 0x40, 1, 0, 0, 0] ++ [0, 0, 2, 0x40, 1, 0, 0, 0] ++ [6, 0, 3, 0])) (fun t => t.qps[(3 : QpIx)]) =
    some { valid := true, sq := 0x140000000, cq := 0x140010000, head := 0x140020000, dlog := 6, vec := 3 } := by decide

/-- Table 2-6: TICK_BUDGET reads 18,750 and TICK_WINDOW 17,538 at the default period. -/
theorem test_budget : tAfter (.rclrRead .host ⟨.bar0, 0x1028⟩ 32) State.reset (·.lastRead) = some 18750 ∧ tAfter (.rclrRead .host ⟨.bar0, 0x102C⟩ 32) State.reset (·.lastRead) = some 17538 := by decide

/-- Table 13-4: with the mark gone, REWIND fails; REWIND_OLDEST makes the 34 retained records unread before the 30. -/
theorem test_rewinds : let s := tPort fun x => { x with ev := { x.ev with unread := List.replicate 30 tRec, ret := List.replicate 34 tRec, mark := none } }
    tAfter (.rewind .host 8 0x40000000) s (fun t => (t.ports[(8 : PortIx)].ev.unread.length, t.ports[(8 : PortIx)].ev.ret.length)) = some (30, 34) ∧
    tAfter (.rewindOldest .host 8 0x20000000) s (fun t => (t.ports[(8 : PortIx)].ev.unread.length, t.ports[(8 : PortIx)].ev.ret.length)) = some (64, 0) := by decide

/-- A division of 7 by -2 gives -3 with remainder 1, after the coprocessor's distance. -/
theorem test_div : let s := tCore fun c => (c.wr 5 7).wr 6 (-2)
    tAfter (.div 3 7 5 6 false) s (fun t => t.cores[(3 : CoreIx)].fly.map (·.val)) = some [0xFFFFFFFD] ∧
    tAfter (.div 3 7 5 6 true) s (fun t => t.cores[(3 : CoreIx)].fly.map (·.val)) = some [1] := by decide

/-- Words written out from Table 7-7 and Table 7-8: op in bits 31 to 25, gd 24 to 20, ga 19 to 15, gb 14 to 10. -/
theorem test_zorath_words : zorath 3 (0b0000001_00111_00101_00110_0000000000#32) 0 = some (.add 3 7 5 6) ∧
    zorath 3 (0b0011000_01001_01000_000000000000001#32) 0 = some (.addi 3 9 8 1) ∧
    zorath 3 (0b0000001_00111_00101_00110_0000000001#32) 0 = none := by decide

end Sys2Proof.Machine
end

/-! ### TICK_PERIOD and PERIOD_TAKES_EFFECT (R37 to R39) -/

namespace Sys2Proof.Machine

/-- A field of bits hi to lo is below the count of values of that width. -/
theorem fld_lt (v : Word) (hi lo : Nat) : fld v hi lo < 2 ^ (hi - lo + 1) := Nat.mod_lt _ (Nat.two_pow_pos _)

/-- R37 as one range: counted in 1/256 step, a valid period is 256,000 to 64,000,000, and FRAC, being below 256, never reaches the next step. -/
theorem periodOk_iff (v : Word) :
    periodOk v = true ↔ 256000 ≤ fld v 17 0 * 256 + fld v 25 18 ∧ fld v 17 0 * 256 + fld v 25 18 ≤ 64000000 := by
  have hfrac : fld v 25 18 < 256 := fld_lt v 25 18
  simp only [periodOk, Bool.and_eq_true, Bool.or_eq_true, decide_eq_true_eq, beq_iff_eq]
  omega

/-- A reserved period sets the tick's CFG_REJ and is not stored (R37, R513). -/
theorem State.wrTickPeriod_reserved {s : State} {v : Word} (h : ¬periodOk v = true) :
    s.wrTickPeriod v = { s with glb := { s.glb with tickRej := true } } := by
  simp [State.wrTickPeriod, h]

/-- A valid period in a follower, or before the tick runs, is stored and nothing becomes pending (R38, R39). -/
theorem State.wrTickPeriod_stored {s : State} {v : Word} (h : periodOk v = true) (hs : s.tick.role = .follower ∨ s.glb.tick = false) :
    s.wrTickPeriod v = { s with tick := { s.tick with period := v &&& 0x03FFFFFF } } := by
  simp [State.wrTickPeriod, h, hs]

/-- A valid period where the running tick is the module's own pends for eight edges; one that pended before is replaced (R38). -/
theorem State.wrTickPeriod_pends {s : State} {v : Word} (h : periodOk v = true) (hr : s.tick.role ≠ .follower) (ht : s.glb.tick = true) :
    s.wrTickPeriod v = { s with tick := { s.tick with period := v &&& 0x03FFFFFF, pend := some (v &&& 0x03FFFFFF, 8) } } := by
  simp [State.wrTickPeriod, h, hr, ht]

/-- TICK_PERIOD in a powered module is the write, whichever agent writes. -/
theorem exec_tickPeriod_alive {s : State} (h : s.alive) (a : Agent) (v : Word) : exec (.tickPeriod a v) s = .next (s.wrTickPeriod v) :=
  live_alive h fun s => s.wrTickPeriod v

/-- PERIOD_TAKES_EFFECT at the tick edge of count 0 shows the pending period in force, and nothing pends (R38). -/
theorem exec_periodTakesEffect_due {s : State} (h : s.alive) {w : Word} (hp : s.tick.pend = some (w, 0)) (he : s.tick.phase = .edge) :
    exec .periodTakesEffect s = .next { s with tick := { s.tick with act := w, pend := none } } := by
  change execPeriodTakesEffect s = _
  simp [execPeriodTakesEffect, live_alive h, hp, he]

/-- PERIOD_TAKES_EFFECT changes nothing while edges are still to come (R38). -/
theorem exec_periodTakesEffect_early {s : State} (h : s.alive) {w : Word} {n : Nat} (hp : s.tick.pend = some (w, n + 1)) :
    exec .periodTakesEffect s = .next s := by
  change execPeriodTakesEffect s = _
  simp [execPeriodTakesEffect, live_alive h, hp]

/-- Settles O34: R37's check is the range of `periodOk_iff`, each outcome of the write is one lemma of `State.wrTickPeriod`, and the pending
count decides PERIOD_TAKES_EFFECT. -/
theorem periodsAreCheckedAndTakeEffect : Obligations.PeriodsAreCheckedAndTakeEffect := by
  intro s a v w halive ok
  have hok : periodOk v = true ↔ ok := periodOk_iff v
  rw [exec_tickPeriod_alive halive, ← hok]
  refine ⟨fun hbad => ?_, fun hgood hown htick => ?_, fun hgood hfollower => ?_, fun hpend hedge => ?_, fun n hpend => ?_⟩
  · rw [State.wrTickPeriod_reserved hbad]
  · rw [State.wrTickPeriod_pends hgood hown htick]
  · rw [State.wrTickPeriod_stored hgood (.inl hfollower)]
  · exact exec_periodTakesEffect_due halive hpend hedge
  · exact exec_periodTakesEffect_early halive hpend

end Sys2Proof.Machine

/-! ### Chains that cannot advance (R189) -/

namespace Sys2Proof.Machine

/-! #### The end of a chain by a check (R201) -/

@[simp] theorem Chan.boundary_cx (x : Chan) : x.boundary.cx = x.cx := by unfold Chan.boundary; split <;> rfl
@[simp] theorem Chan.boundary_ctl (x : Chan) : x.boundary.ctl = x.ctl := by unfold Chan.boundary; split <;> rfl
@[simp] theorem Chan.boundary_cur (x : Chan) : x.boundary.cur = x.cur := by unfold Chan.boundary; split <;> rfl

/-- The completion of a channel's command changes the queue pairs' backlogs alone (R203, R344). -/
theorem State.chanComplete_frame (s : State) (n : ChIx) (st d r : Nat) :
    s.chanComplete n st d r = { s with qps := (s.chanComplete n st d r).qps } := by
  unfold State.chanComplete
  split
  · exact State.complete_frame s _ _ d r
  · rfl

@[simp] theorem State.chanComplete_chans (s : State) (n : ChIx) (st d r : Nat) : (s.chanComplete n st d r).chans = s.chans := by
  rw [State.chanComplete_frame]
@[simp] theorem State.chanComplete_lmem (s : State) (n : ChIx) (st d r : Nat) : (s.chanComplete n st d r).lmem = s.lmem := by
  rw [State.chanComplete_frame]
@[simp] theorem State.chanComplete_now (s : State) (n : ChIx) (st d r : Nat) : (s.chanComplete n st d r).now = s.now := by
  rw [State.chanComplete_frame]; rfl

/-- The running command completes with the status given, unless that is OK (R203, R285). -/
theorem State.chanComplete_ended {s : State} {n : ChIx} {c : Cmd} (hcur : s.chans[n].cur = some c) {st : Nat} (hst : st ≠ stOk) (d r : Nat) :
    (s.chanComplete n st d r).ended c st d r := by
  have hcomplete : s.chanComplete n st d r = s.complete c st d r := by
    unfold State.chanComplete
    rw [hcur]
    simp [hst]
  exact hcomplete ▸ State.complete_ended s c st d r

/-- Channel n's chain has ended between s and t with PROGRAM_CHECK and a cause, the cx registers and local memory as they were (R201). -/
def State.chainChecked (s t : State) (n : ChIx) (cause : Nat) : Prop :=
  t.chans[n].state = .check ∧ t.chans[n].cause = cause ∧ t.chans[n].cx = s.chans[n].cx ∧ t.lmem = s.lmem ∧
    t.chans[n].cur = none ∧ ∀ c, s.chans[n].cur = some c → t.ended c 0x10 cause 0

/-- A check of a program ends the chain of a channel that is not asked to halt. The causes left out complete with a status of their own. -/
theorem State.check_chainChecked {s : State} {n : ChIx} (hrun : s.chans[n].halting = false) {cause : Nat} (hcause : cause < 0x20) :
    s.chainChecked (s.check n cause 0) n cause := by
  have hne : cause ≠ 0x20 ∧ cause ≠ 0x21 ∧ cause ≠ 0x22 := by omega
  obtain ⟨hbudget, hmove, hdomain⟩ := hne
  unfold State.check
  rw [if_neg (ne_true_of_eq_false hrun)]
  simp only [if_neg hbudget, if_neg hmove, if_neg hdomain]
  refine ⟨by simp, by simp, by simp, by simp, by simp, fun c hcur => ?_⟩
  refine State.chanComplete_ended (st := stProgram) ?_ (by decide) cause 0
  simpa using hcur

/-! #### The end of an entry (R175) -/

/-- An entry after which the chain does not end leaves the count of control entries (R189). -/
theorem State.entryNext_ctl (s : State) (n : ChIx) {c : Cont} (hends : c.ends = false) : (s.entryNext n c).chans[n].ctl = s.chans[n].ctl := by
  unfold State.entryNext
  dsimp only
  split
  · simp [Chan.atBoundary]
  · rw [if_neg (by simp [hends])]
    split <;> simp

/-- The end of an entry that goes on, in a channel that posts nothing, leaves the count of control entries. -/
theorem State.entryEnd_ctl {s : State} {n : ChIx} (hpost : s.chans[n].post.en = false) {fl : BitVec 8} {flow : Bool}
    (hgoes : flow = true ∨ fl.getLsbD 0 = true) (next st : Nat) : (s.entryEnd n fl flow next st false).chans[n].ctl = s.chans[n].ctl := by
  unfold State.entryEnd
  dsimp only
  rw [hpost, if_neg (by simp)]
  refine State.entryNext_ctl s n ?_
  rcases hgoes with h | h <;> simp [h]

/-! #### Control and flow entries (R189) -/

/-- Channel n runs and has read the entry e of operation op, which has not begun. -/
abbrev State.standsAt (s : State) (n : ChIx) (e : Cce) (op : Nat) : Prop :=
  s.alive ∧ s.chans[n].ent = some e ∧ e.op = op ∧ s.chans[n].state = .active ∧ s.chans[n].wait = .executing ∧ s.chans[n].cont = none ∧
    s.chans[n].sc.release = [] ∧ s.chans[n].halting = false

/-- A channel whose entry stands is not asked to halt. -/
theorem State.standsAt_running {s : State} {n : ChIx} {e : Cce} {op : Nat} (h : s.standsAt n e op) : s.chans[n].halting = false := by
  obtain ⟨-, -, -, -, -, -, -, hrun⟩ := h
  exact hrun

/-- An entry that stands is carried out. -/
theorem State.entry_standsAt {s : State} {n : ChIx} {e : Cce} {op : Nat} (h : s.standsAt n e op) (f : Cce → State → State) :
    s.entry n op f = f e s := by
  obtain ⟨-, hent, hop, hactive, hwait, hcont, hrelease, -⟩ := h
  simp only [Fin.getElem_fin] at hent hactive hwait hcont hrelease
  simp [State.entry, hent, hop, hactive, hwait, hcont, hrelease]

/-- Channel n with one control or flow entry more in its count. -/
def State.counted (s : State) (n : ChIx) : State := s.modChan n fun x => { x with ctl := x.ctl + 1 }

/-- An entry whose target is its own address ends the chain as SELF_TARGET, whatever the count. -/
theorem State.control_self {s : State} {n : ChIx} {e : Cce} (hself : e.addr = s.chans[n].cce) (f : State → State) :
    s.control n e true f = s.check n 0x0A 0 := by
  simp [State.control, hself]

/-- The 64th entry in a row ends the chain as NO_PROGRESS, unless it is a self-target. -/
theorem State.control_last {s : State} {n : ChIx} {e : Cce} {self : Bool} (helse : self = true → e.addr ≠ s.chans[n].cce)
    (hlast : s.chans[n].ctl = 63) (f : State → State) : s.control n e self f = s.check n 0x0B 0 := by
  unfold State.control
  rw [if_neg (by simpa using helse)]
  exact if_pos hlast.ge

/-- Any other entry is counted and takes effect. -/
theorem State.control_counted {s : State} {n : ChIx} {e : Cce} {self : Bool} (helse : self = true → e.addr ≠ s.chans[n].cce)
    (hlt : s.chans[n].ctl < 63) (f : State → State) : s.control n e self f = f (s.counted n) := by
  unfold State.control
  rw [if_neg (by simpa using helse)]
  exact if_neg hlt.not_ge

/-- The command i carries out the control or flow entry of operation op on channel n; `self` says whether the entry may not target its own address.
Where `passes` holds of the channel and the entry, and the channel posts nothing, the entry's effect leaves the count. -/
def ControlEntry (i : Instr) (n : ChIx) (op : Nat) (self : Bool) (passes : Chan → Cce → Prop) : Prop :=
  ∃ f : Cce → State → State, (∀ s, exec i s = live s fun s => s.entry n op fun e s => s.control n e self (f e)) ∧
    ∀ e u, u.chans[n].post.en = false → passes u.chans[n] e → (f e u).chans[n].ctl = u.chans[n].ctl

/-- CCE_NOP passes with NEXT (R172). -/
theorem cceNop_controlEntry (n : ChIx) : ControlEntry (.cceNop n) n 0x01 false fun _ e => e.flags.getLsbD 0 = true :=
  ⟨_, fun _ => rfl, fun _ _ hpost hnext => State.entryEnd_ctl hpost (.inr hnext) _ _⟩

/-- JUMP passes (R172). -/
theorem jump_controlEntry (n : ChIx) : ControlEntry (.jump n) n 0x03 true fun _ _ => True :=
  ⟨_, fun _ => rfl, fun _ _ hpost _ => State.entryEnd_ctl hpost (.inl rfl) _ _⟩

/-- LDCX passes with NEXT (R172). -/
theorem ldcx_controlEntry (n : ChIx) : ControlEntry (.ldcx n) n 0x06 false fun _ e => e.flags.getLsbD 0 = true := by
  refine ⟨_, fun _ => rfl, fun e u hpost hnext => ?_⟩
  rw [State.entryEnd_ctl (by simpa using hpost) (.inr hnext)]
  simp

/-- BRCX passes, whether its register is exhausted or not (R188). -/
theorem brcx_controlEntry (n : ChIx) : ControlEntry (.brcx n) n 0x07 true fun _ _ => True := by
  refine ⟨_, fun _ => rfl, fun e u hpost _ => ?_⟩
  dsimp only
  split
  · exact State.entryEnd_ctl hpost (.inl rfl) _ _
  · rw [State.entryEnd_ctl (by simpa using hpost) (.inl rfl)]
    simp

/-- A return passes from a level below the first, where its save frame is sound (R192, R201). -/
theorem retc_controlEntry (n : ChIx) (ecc : Bool) : ControlEntry (.retc n ecc) n 0x05 false fun x _ => x.depth ≠ 0 ∧ ecc = false := by
  refine ⟨_, fun _ => rfl, fun e u hpost ⟨hdepth, hecc⟩ => ?_⟩
  dsimp only
  rw [if_neg hdepth, if_neg (by simp [hecc]), State.entryEnd_ctl (by simpa using hpost) (.inl rfl)]
  simp

/-- What a call saves leaves every channel alone (R193). -/
theorem State.each_localWrite_chans {α : Type} (s : State) (xs : List α) (a : α → Nat) (b : α → List Byte) :
    (s.each xs fun k s => s.localWrite none (a k) (b k)).chans = s.chans :=
  State.each_keeps (fun t => t.chans = s.chans) (fun k t => t.localWrite none (a k) (b k)) (fun _ _ ht => ht) xs s rfl

/-- A call passes above the eighth level, where its save frame is sound (R191, R201). -/
theorem callc_controlEntry (n : ChIx) (ecc : Bool) : ControlEntry (.callc n ecc) n 0x04 true fun x _ => x.depth < 8 ∧ ecc = false := by
  refine ⟨_, fun _ => rfl, fun e u hpost ⟨hdepth, hecc⟩ => ?_⟩
  dsimp only
  rw [if_neg hdepth.not_ge, if_neg (by simp [hecc]), State.entryEnd_ctl _ (.inl rfl)]
  · simp only [State.modChan_same, Fin.getElem_fin, State.each_localWrite_chans]; rfl
  · simp only [State.modChan_same, Fin.getElem_fin, State.each_localWrite_chans]; exact hpost

section
variable {i : Instr} {n : ChIx} {op : Nat} {self : Bool} {passes : Chan → Cce → Prop} {s : State} {e : Cce}

/-- A self-target ends the chain before it takes effect. -/
theorem ControlEntry.selfTarget (hi : ControlEntry i n op true passes) (hself : e.addr = s.chans[n].cce) (h : s.standsAt n e op) :
    Gives i s fun t => s.chainChecked t n 0x0A := by
  obtain ⟨f, hexec, -⟩ := hi
  refine ⟨s.check n 0x0A 0, ?_, State.check_chainChecked (State.standsAt_running h) (by decide)⟩
  rw [hexec, live_alive h.1, State.entry_standsAt h, State.control_self hself]

/-- The 64th entry in a row ends the chain before it takes effect. -/
theorem ControlEntry.noProgress (hi : ControlEntry i n op self passes) (hlast : s.chans[n].ctl = 63)
    (helse : self = true → e.addr ≠ s.chans[n].cce) (h : s.standsAt n e op) : Gives i s fun t => s.chainChecked t n 0x0B := by
  obtain ⟨f, hexec, -⟩ := hi
  refine ⟨s.check n 0x0B 0, ?_, State.check_chainChecked (State.standsAt_running h) (by decide)⟩
  rw [hexec, live_alive h.1, State.entry_standsAt h, State.control_last helse hlast]

/-- An entry before the 64th that passes is counted. -/
theorem ControlEntry.counts (hi : ControlEntry i n op self passes) (hlt : s.chans[n].ctl < 63) (hpost : s.chans[n].post.en = false)
    (helse : self = true → e.addr ≠ s.chans[n].cce) (h : s.standsAt n e op)
    (hpasses : passes { s.chans[n] with ctl := s.chans[n].ctl + 1 } e) : Gives i s fun t => t.chans[n].ctl = s.chans[n].ctl + 1 := by
  obtain ⟨f, hexec, hkeeps⟩ := hi
  have hcounted : (s.counted n).chans[n] = { s.chans[n] with ctl := s.chans[n].ctl + 1 } := by simp [State.counted]
  refine ⟨f e (s.counted n), ?_, ?_⟩
  · rw [hexec, live_alive h.1, State.entry_standsAt h, State.control_counted helse hlt]
  · change (f e (s.counted n)).chans[n].ctl = _
    rw [hkeeps e _ (hcounted ▸ hpost) (hcounted ▸ hpasses), hcounted]

end

/-! #### Entries that start the count again (R189) -/

/-- WAITF starts the count again. -/
theorem exec_waitf_ctl {s : State} {n : ChIx} {e : Cce} (h : s.standsAt n e 0x02) : Gives (.waitf n) s fun t => t.chans[n].ctl = 0 := by
  refine ⟨_, (live_alive h.1 _ : execWaitf n s = _), ?_⟩
  dsimp only
  rw [State.entry_standsAt h]
  simp

/-- A MOVE entry that stands has not started its program. -/
theorem State.moveEntry_standsAt {s : State} {n : ChIx} {e : Cce} (h : s.standsAt n e 0x80) : s.moveEntry n = some e := by
  obtain ⟨-, hent, hop, hactive, hwait, hcont, -, hrun⟩ := h
  simp only [Fin.getElem_fin] at hent hactive hwait hcont hrun
  simp [State.moveEntry, hent, hop, hactive, hwait, hcont, hrun]

/-- A granted MOVE entry whose move channel is free starts the count again (R186). -/
theorem exec_moveEntry_ctl {s : State} {n : ChIx} {e : Cce} {m : McIx} (h : s.standsAt n e 0x80) (hbound : s.chans[n].bind.mc = some m)
    (hfence : s.mcs[m].fenced = false) (hgrant : s.chans[n].granted = true) (hmove : s.glb.move = true) (hidle : s.mcs[m].state = .idle) :
    Gives (.moveEntry n) s fun t => t.chans[n].ctl = 0 := by
  refine ⟨_, (live_alive h.1 _ : execMoveEntry n s = _), ?_⟩
  simp only [Fin.getElem_fin] at hbound hfence hgrant hidle
  simp [State.moveEntry_standsAt h, hbound, hfence, hgrant, hmove, hidle, State.mcStart]

/-- A range below the end of local memory is one a channel may address (R169). -/
theorem chanAddrOk_local {a n : Nat} (h : a + n ≤ 0xE0000000) : chanAddrOk a n = true := by
  simp [chanAddrOk, localEnd, h]

/-- A data area of one segment in local memory, within the window, meets no check in a channel whose core holds the routine (R176, R178). -/
theorem State.opFault_local {s : State} {n : ChIx} {o : Op} {g : Seg} (hsegs : o.segs = [g]) (hcount : g.count ≤ 16384)
    (hslot : (s.cores[s.chans[n].bind.core].slots[(finOf 32 o.op : Fin 32)]).valid = true) (haddr : g.addr + g.count ≤ 0xE0000000) :
    s.opFault n o = 0 := by
  simp only [Fin.getElem_fin] at hslot
  simp [State.opFault, segTotal, hsegs, hcount, hslot, chanAddrOk_local haddr]

/-- An operation that becomes ready starts the count again. -/
@[simp] theorem State.opReady_ctl (s : State) (n : ChIx) (data : List Byte) : (s.opReady n data).chans[n.val].ctl = 0 := by
  simp [State.opReady]

/-- EXEC_R whose data area meets no check starts the count again (R177). -/
theorem exec_execR_ctl {s : State} {n : ChIx} {o : Op} {e : Cce} (halive : s.alive) (hgather : s.chans[n].gathering = some (o, e))
    (hop : 0x60 ≤ o.op) (hfault : s.opFault n o = 0) : Gives (.execR n) s fun t => t.chans[n].ctl = 0 := by
  refine ⟨s.opReady n [], ?_, s.opReady_ctl n []⟩
  change execExecR n s = _
  simp only [Fin.getElem_fin] at hgather
  simp [execExecR, live_alive halive, hgather, hop.not_gt, hfault]

/-- EXEC_W whose data area lies in local memory and may be fetched now starts the count again (R177, R180). -/
theorem exec_execW_ctl {s : State} {n : ChIx} {o : Op} {e : Cce} (halive : s.alive) (hgather : s.chans[n].gathering = some (o, e))
    (hop : o.op < 0x60) (hfault : s.opFault n o = 0) (hopen : s.fetchOpen n o = true) (hlocal : hostTotal o.segs = 0) :
    Gives (.execW n (.ok [])) s fun t => t.chans[n].ctl = 0 := by
  refine ⟨s.opReady n (gather s.lmem o.segs []), ?_, s.opReady_ctl n _⟩
  change execExecW n (.ok []) s = _
  simp only [Fin.getElem_fin] at hgather
  simp [execExecW, hgather, hop.not_ge, hfault, hopen, hlocal]

/-- A segment in local memory takes no bytes from the host. -/
theorem hostTotal_local {g : Seg} (haddr : g.addr + g.count ≤ 0xE0000000) : hostTotal [g] = 0 := by
  have hhost : isHost g.addr = false := decide_eq_false (by omega)
  simp [hostTotal, segTotal, hhost]

/-- Settles O23: each control and flow command is a `ControlEntry`, whose self-target and 64th entry end the chain before the effect, the self-target
judged first (log entry 21), and whose other entries are counted; WAITF, MOVE and device operations start the count again. -/
theorem chainsThatCannotAdvanceEnd : Obligations.ChainsThatCannotAdvanceEnd := by
  intro s n e o g b m x stands checked counts clears
  refine ⟨fun hself => ?_, fun hlast => ?_, fun hlt hpost => ?_, exec_waitf_ctl, exec_moveEntry_ctl, fun halive hgather hsegs hcount hslot haddr => ?_⟩
  · exact ⟨(jump_controlEntry n).selfTarget hself, (callc_controlEntry n b).selfTarget hself, (brcx_controlEntry n).selfTarget hself⟩
  · have notFlow : false = true → e.addr ≠ s.chans[n].cce := nofun
    exact ⟨(cceNop_controlEntry n).noProgress hlast notFlow, (retc_controlEntry n b).noProgress hlast notFlow,
      (ldcx_controlEntry n).noProgress hlast notFlow, fun helse => ⟨(jump_controlEntry n).noProgress hlast fun _ => helse,
        (callc_controlEntry n b).noProgress hlast fun _ => helse, (brcx_controlEntry n).noProgress hlast fun _ => helse⟩⟩
  · have notFlow : false = true → e.addr ≠ s.chans[n].cce := nofun
    refine ⟨fun hnext => ?_, fun _ => ⟨fun h hdepth => ?_, fun helse => ⟨fun h => ?_, fun h hdepth => ?_, fun h => ?_⟩⟩⟩
    · have hgoes : e.flags.getLsbD 0 = true := by rw [hnext]; rfl
      exact ⟨fun h => (cceNop_controlEntry n).counts hlt hpost notFlow h hgoes, fun h => (ldcx_controlEntry n).counts hlt hpost notFlow h hgoes⟩
    · exact (retc_controlEntry n false).counts hlt hpost notFlow h ⟨hdepth, rfl⟩
    · exact (jump_controlEntry n).counts hlt hpost (fun _ => helse) h trivial
    · exact (callc_controlEntry n false).counts hlt hpost (fun _ => helse) h ⟨hdepth, rfl⟩
    · exact (brcx_controlEntry n).counts hlt hpost (fun _ => helse) h trivial
  · have hfault : s.opFault n o = 0 := State.opFault_local hsegs hcount hslot haddr
    refine ⟨fun hop => exec_execR_ctl halive hgather hop hfault, fun hop huntimed => ?_⟩
    refine exec_execW_ctl halive hgather hop hfault ?_ (hsegs ▸ hostTotal_local haddr)
    simp only [x, Fin.getElem_fin] at huntimed
    simp [State.fetchOpen, huntimed]

end Sys2Proof.Machine

/-! ### REWIND in a port's event queue (R396, R398) -/

namespace Sys2Proof.Machine

/-- A change of one port depends only on what it does to that port as it stands. -/
theorem State.modPort_congr {s : State} {p : PortIx} {f g : Port → Port} (h : f s.ports[p] = g s.ports[p]) : s.modPort p f = s.modPort p g := by
  simp only [State.modPort, h]

/-- REWIND without a mark sets RW_FAIL and keeps the records on both sides of the read pointer (R398). -/
theorem PortEvq.rewind_unmarked {e : PortEvq} (h : e.mark = none) : e.rewind = { e with rwFail := true } := by
  simp [PortEvq.rewind, h]

/-- PC_EVQ_MARK written with REWIND alone, in a ready Comb, is the rewind of the port's queue: it clears neither sticky bit and places no mark (R401). -/
theorem State.wrEvqMark_rewind {s : State} {p : PortIx} (h : s.combReady (combOf p) = true) :
    s.wrEvqMark p 0x40000000 = s.modPort p fun x => { x with ev := x.ev.rewind } := by
  simp [State.wrEvqMark, h, bit]

/-- REWIND in a powered module is the write of PC_EVQ_MARK, whichever agent writes. -/
theorem exec_rewind_alive {s : State} (h : s.alive) (a : Agent) (p : PortIx) (v : Word) : exec (.rewind a p v) s = .next (s.wrEvqMark p v) :=
  live_alive h fun s => s.wrEvqMark p v

/-- Settles O37: the write is the rewind of the port's queue, and a rewind of an unmarked queue sets RW_FAIL and nothing else. -/
theorem rewindWithoutAMarkFails : Obligations.RewindWithoutAMarkFails := by
  intro s a p halive hready hunmarked
  have hfails : s.ports[p].ev.rewind = { s.ports[p].ev with rwFail := true } := PortEvq.rewind_unmarked hunmarked
  rw [exec_rewind_alive halive, State.wrEvqMark_rewind hready]
  rw [State.modPort_congr (g := fun x => { x with ev := { x.ev with rwFail := true } }) (by simp only [hfails])]

end Sys2Proof.Machine

/-! ### What leaves Fanning's registers as they are: writes in the Comb region, stores, traps -/

namespace Sys2Proof.Machine

section
variable (s : State)

/-! #### Writes of a port's and a Comb's registers (R71, R513) -/

@[simp] theorem State.portRej_fan (p : PortIx) : (s.portRej p).fan = s.fan := rfl
@[simp] theorem State.modeLockErr_fan (p : PortIx) : (s.modeLockErr p).fan = s.fan := rfl

@[simp] theorem State.wrMode_fan (p : PortIx) (v : Word) : (s.wrMode p v).fan = s.fan := by
  simp [State.wrMode, apply_ite State.fan]
@[simp] theorem State.wrRange_fan (p : PortIx) (v : Word) : (s.wrRange p v).fan = s.fan := by
  simp [State.wrRange, apply_ite State.fan]
@[simp] theorem State.wrLimits_fan (p : PortIx) (v : Word) : (s.wrLimits p v).fan = s.fan := by
  simp [State.wrLimits, apply_ite State.fan]
@[simp] theorem State.wrLoadRef_fan (p : PortIx) (v : Word) : (s.wrLoadRef p v).fan = s.fan := by
  simp [State.wrLoadRef, apply_ite State.fan]
@[simp] theorem State.wrOutSet_fan (p : PortIx) (src : Option CoreIx) (v : Word) : (s.wrOutSet p src v).fan = s.fan := by
  simp [State.wrOutSet, apply_ite State.fan]
@[simp] theorem State.wrPcStat_fan (p : PortIx) (v : Word) : (s.wrPcStat p v).fan = s.fan := by
  simp [State.wrPcStat, apply_ite State.fan]
@[simp] theorem State.wrEvqStat_fan (p : PortIx) (v : Word) : (s.wrEvqStat p v).fan = s.fan := by
  simp [State.wrEvqStat, apply_ite State.fan]
@[simp] theorem State.wrEvqMark_fan (p : PortIx) (v : Word) : (s.wrEvqMark p v).fan = s.fan := by
  simp [State.wrEvqMark, apply_ite State.fan]
@[simp] theorem State.pushChar_fan (p : PortIx) (c : BitVec 9) : (s.pushChar p c).fan = s.fan := by
  simp [State.pushChar, apply_ite State.fan]
@[simp] theorem State.wrTxqPush_fan (p : PortIx) (v : Word) : (s.wrTxqPush p v).fan = s.fan := by
  simp [State.wrTxqPush, apply_ite State.fan]
@[simp] theorem State.wrTxqStat_fan (p : PortIx) (v : Word) : (s.wrTxqStat p v).fan = s.fan := by
  simp [State.wrTxqStat, apply_ite State.fan]
@[simp] theorem State.wrGraft_fan (p : PortIx) (v : Word) : (s.wrGraft p v).fan = s.fan := by
  simp [State.wrGraft, apply_ite State.fan]
@[simp] theorem State.wrScoutTol_fan (p : PortIx) (v : Word) : (s.wrScoutTol p v).fan = s.fan := by
  simp [State.wrScoutTol, apply_ite State.fan]
@[simp] theorem State.wrScoutPred_fan (p : PortIx) (v : Word) : (s.wrScoutPred p v).fan = s.fan := by
  simp [State.wrScoutPred, apply_ite State.fan]

@[simp] theorem State.readerRest_fan (p : PortIx) : (s.readerRest p).fan = s.fan := rfl
@[simp] theorem State.actOn_fan (p : PortIx) (h : Held) : (s.actOn p h).fan = s.fan := by
  unfold State.actOn
  dsimp only
  split
  · simp
  · split
    · simp
    · split
      · split <;> simp
      · simp
@[simp] theorem State.calRestart_fan (p : PortIx) : (s.calRestart p).fan = s.fan := by
  simp [State.calRestart, apply_ite State.fan]
@[simp] theorem State.rehold_fan (p : PortIx) : (s.rehold p).fan = s.fan := by
  simp [State.rehold, apply_ite State.fan]
@[simp] theorem State.wrSafe_fan (p : PortIx) (v : Word) : (s.wrSafe p v).fan = s.fan := by
  simp [State.wrSafe, apply_ite State.fan]

@[simp] theorem State.portWrite_fan (src : Option CoreIx) (p : PortIx) (ofs : Nat) (v : Word) : (s.portWrite src p ofs v).fan = s.fan := by
  unfold State.portWrite
  split <;> simp
@[simp] theorem State.wrFsStat_fan (c : CombIx) (v : Word) : (s.wrFsStat c v).fan = s.fan := by
  simp [State.wrFsStat, apply_ite State.fan]
@[simp] theorem State.wrCalReq_fan (c : CombIx) (v : Word) : (s.wrCalReq c v).fan = s.fan := by
  simp [State.wrCalReq, apply_ite State.fan]
@[simp] theorem State.combWrite_fan (c : CombIx) (ofs : Nat) (v : Word) : (s.combWrite c ofs v).fan = s.fan := by
  unfold State.combWrite
  split <;> simp

/-- Fanning's registers do not lie in the Comb region. -/
@[simp] theorem State.regionWrite_fan (src : Option CoreIx) (a : Nat) (v : Word) : (s.regionWrite src a v).fan = s.fan := by
  unfold State.regionWrite
  split <;> simp

/-! #### Stores of a core (R214, R216) -/

@[simp] theorem State.clearRsv_fan (b : Option CoreIx) (hit : CoreIx → Nat → Nat → Bool) : (s.clearRsv b hit).fan = s.fan := rfl
@[simp] theorem State.localWrite_fan (b : Option CoreIx) (a : Nat) (bs : List Byte) : (s.localWrite b a bs).fan = s.fan := rfl

/-- A core's stores do not reach Fanning's registers, wherever they point. -/
@[simp] theorem State.perform_fan (k : CoreIx) (x : Nat) (bs : List Byte) : (s.perform k x bs).fan = s.fan := by
  unfold State.perform
  split <;> simp
@[simp] theorem State.arrive_fan (k : CoreIx) (st : Store) : (s.arrive k st).fan = s.fan := by
  simp [State.arrive, apply_ite State.fan]
@[simp] theorem State.drainAll_fan (k : CoreIx) : (s.drainAll k).fan = s.fan :=
  State.each_keeps (fun t => t.fan = s.fan) _ (fun st t h => (t.arrive_fan k st).trans h) _ _ rfl

/-! #### The end of a routine, checks and traps (R44, R201, R253, R254) -/

@[simp] theorem State.charge_fan (k : CoreIx) (n : Nat) : (s.charge k n).fan = s.fan := by
  unfold State.charge
  dsimp only
  split <;> simp
@[simp] theorem State.chargeHeld_fan (k : CoreIx) : (s.chargeHeld k).fan = s.fan := by
  simp [State.chargeHeld, apply_ite State.fan]
@[simp] theorem State.unhold_fan (k : CoreIx) : (s.unhold k).fan = s.fan := by simp [State.unhold]
@[simp] theorem State.freeCore_fan (k : CoreIx) : (s.freeCore k).fan = s.fan := by simp [State.freeCore]
@[simp] theorem State.stopCore_fan (k : CoreIx) : (s.stopCore k).fan = s.fan := by simp [State.stopCore]

@[simp] theorem State.chanComplete_fan (n : ChIx) (st d r : Nat) : (s.chanComplete n st d r).fan = s.fan := by
  rw [State.chanComplete_frame]
@[simp] theorem State.check_fan (n : ChIx) (cause detail : Nat) : (s.check n cause detail).fan = s.fan := by
  simp [State.check, apply_ite State.fan]

@[simp] theorem State.trapOut_fan (k : CoreIx) (r : Run) : (s.trapOut k r).fan = s.fan := by
  simp [State.trapOut, apply_ite State.fan]
@[simp] theorem State.trapAt_fan (k : CoreIx) (etpc erpc w : Word) (cause code : Nat) (ebad : Word) (ds rpt : Bool) :
    (s.trapAt k etpc erpc w cause code ebad ds rpt).fan = s.fan := by
  unfold State.trapAt
  dsimp only
  split
  · simp
  · split <;> simp
@[simp] theorem State.trap_fan (k : CoreIx) (w : Word) (cause code : Nat) (ebad : Word) : (s.trap k w cause code ebad).fan = s.fan := by
  unfold State.trap
  dsimp only
  split <;> simp
@[simp] theorem State.mzTrap_fan (k : CoreIx) (w : Word) (cause : Nat) (ebad : Word) : (s.mzTrap k w cause ebad).fan = s.fan := by
  simp [State.mzTrap]

end

end Sys2Proof.Machine

/-! ### DOMAIN_POWER_DOWN and DOMAIN_POWER_UP (R451) -/

namespace Sys2Proof.Machine

/-! #### A fold that touches each element once -/

/-- Where f at x changes what g sees only for x = n, a fold over distinct elements changes it once if n is among them, and else not at all. -/
theorem State.each_once {α β : Type} {f : α → State → State} {g : State → β} {n : α} (hother : ∀ x s, x ≠ n → g (f x s) = g s) {xs : List α}
    (hdistinct : xs.Nodup) (s : State) :
    (n ∉ xs → g (s.each xs f) = g s) ∧ (n ∈ xs → ∃ t, g t = g s ∧ g (s.each xs f) = g (f n t)) := by
  induction xs generalizing s with
  | nil => exact ⟨fun _ => rfl, nofun⟩
  | cons x xs ih =>
    obtain ⟨hx, hxs⟩ := List.nodup_cons.mp hdistinct
    obtain ⟨hout, hin⟩ := ih hxs (f x s)
    rw [State.each_cons]
    by_cases hxn : x = n
    · subst hxn
      exact ⟨fun hn => absurd List.mem_cons_self hn, fun _ => ⟨s, rfl, hout hx⟩⟩
    · rw [hother x s hxn] at hout hin
      exact ⟨fun hn => hout fun h => hn (List.mem_cons_of_mem x h), fun hn => hin (List.mem_of_ne_of_mem (Ne.symm hxn) hn)⟩

/-! #### One domain -/

@[simp] theorem State.stopMovesIn_fan (s : State) (n : Nat) : (s.stopMovesIn n).fan = s.fan := rfl

/-- The traps of mezzanine instructions leave Fanning as it is (R261, R452). -/
@[simp] theorem State.mezzDrain_fan (s : State) : s.mezzDrain.fan = s.fan := by
  refine State.each_keeps (fun t => t.fan = s.fan) _ (fun k t ht => ?_) _ s rfl
  split <;> simp [ht]

/-- Of Fanning, a domain that enters DRAINING changes its own state alone (R452). -/
theorem State.drain_fan (s : State) (n : Fin 32) : (s.drain n).fan = { s.fan with dom := s.fan.dom.set n .draining } := by
  simp [State.drain, apply_ite State.fan]

/-- The state of domain n by its number. -/
theorem State.dom_eq (s : State) (n : Fin 32) : s.dom n.val = s.fan.dom[n] := by
  simp [State.dom, finOf]

/-- All that f at n does to Fanning: domain n may change its state and its mark of automatic gating, and from state a it goes to state b. -/
def MovesDomain (f : Fin 32 → State → State) (a b : Dom) : Prop :=
  ∀ n s, ∃ auto d, (f n s).fan = { s.fan with auto := auto, dom := s.fan.dom.set n d } ∧ (s.fan.dom[n] = a → d = b)

/-- A request down takes a domain from ON to DRAINING (R451, R452). -/
theorem domainDown_movesDomain : MovesDomain (fun n s => s.domainDown n) .on .draining := by
  intro n s
  simp only [State.domainDown, State.dom_eq]
  split
  case h_1 => exact ⟨_, .draining, State.drain_fan _ n, fun _ => rfl⟩
  case h_2 => exact ⟨_, .draining, State.drain_fan _ n, fun _ => rfl⟩
  case h_3 hon _ => exact ⟨_, s.fan.dom[n], by simp only [Fin.getElem_fin, Vector.set_getElem_self]; rfl, fun h => absurd h hon⟩

/-- A request up takes a domain from OFF to rising (R451). -/
theorem domainUp_movesDomain : MovesDomain (fun n s => s.domainUp n) .off .rising := by
  intro n s
  simp only [State.domainUp, State.dom_eq]
  split
  case isTrue => exact ⟨_, .rising, rfl, fun _ => rfl⟩
  case isFalse hoff => exact ⟨_, s.fan.dom[n], by simp only [Fin.getElem_fin, Vector.set_getElem_self]; rfl, fun h => absurd h hoff⟩

section
variable {f : Fin 32 → State → State} {a b : Dom}

theorem MovesDomain.req_eq (hf : MovesDomain f a b) (n : Fin 32) (s : State) : (f n s).fan.req = s.fan.req := by
  obtain ⟨auto, d, hfan, -⟩ := hf n s
  rw [hfan]

theorem MovesDomain.domRej_eq (hf : MovesDomain f a b) (n : Fin 32) (s : State) : (f n s).fan.domRej = s.fan.domRej := by
  obtain ⟨auto, d, hfan, -⟩ := hf n s
  rw [hfan]

theorem MovesDomain.dom_ne (hf : MovesDomain f a b) {m n : Fin 32} (s : State) (h : m ≠ n) : (f m s).fan.dom[n] = s.fan.dom[n] := by
  obtain ⟨auto, d, hfan, -⟩ := hf m s
  have hval : m.val ≠ n.val := Fin.val_ne_of_ne h
  simp [hfan, Vector.getElem_set_ne, hval]

theorem MovesDomain.dom_self (hf : MovesDomain f a b) {n : Fin 32} {s : State} (h : s.fan.dom[n] = a) : (f n s).fan.dom[n] = b := by
  obtain ⟨auto, d, hfan, hd⟩ := hf n s
  simp [hfan, hd h]

theorem MovesDomain.each_req (hf : MovesDomain f a b) (xs : List (Fin 32)) (s : State) : (s.each xs f).fan.req = s.fan.req :=
  State.each_keeps (fun t => t.fan.req = s.fan.req) f (fun n t ht => (hf.req_eq n t).trans ht) xs s rfl

theorem MovesDomain.each_domRej (hf : MovesDomain f a b) (xs : List (Fin 32)) (s : State) : (s.each xs f).fan.domRej = s.fan.domRej :=
  State.each_keeps (fun t => t.fan.domRej = s.fan.domRej) f (fun n t ht => (hf.domRej_eq n t).trans ht) xs s rfl

/-- Of the domains that p picks, each is among them once. -/
theorem nodup_allFin_filter (p : Fin 32 → Bool) : ((allFin 32).filter p).Nodup := (List.nodup_finRange 32).filter p

/-- A domain that is not picked stays. -/
theorem MovesDomain.each_out (hf : MovesDomain f a b) {p : Fin 32 → Bool} {n : Fin 32} (hn : p n = false) (s : State) :
    (s.each ((allFin 32).filter p) f).fan.dom[n] = s.fan.dom[n] := by
  obtain ⟨hout, -⟩ := State.each_once (g := fun t => t.fan.dom[n]) (fun m t => hf.dom_ne t) (nodup_allFin_filter p) s
  exact hout (by simp [hn])

/-- A domain that is picked goes from a to b. -/
theorem MovesDomain.each_in (hf : MovesDomain f a b) {p : Fin 32 → Bool} {n : Fin 32} (hn : p n = true) {s : State} (ha : s.fan.dom[n] = a) :
    (s.each ((allFin 32).filter p) f).fan.dom[n] = b := by
  obtain ⟨-, hin⟩ := State.each_once (g := fun t => t.fan.dom[n]) (fun m t => hf.dom_ne t) (nodup_allFin_filter p) s
  obtain ⟨t, ht, heach⟩ := hin (by simp [allFin, hn])
  exact heach.trans (hf.dom_self (ht.trans ha))

end

/-! #### The register -/

/-- A value of FAN_DOM_REQ that is discarded: it sets a bit that no request may set, or the bit of a Comb that may not rest (R451, R455). -/
def State.domReqBad (s : State) (w : Word) : Prop :=
  w &&& 0xFF01 ≠ 0 ∨ ∃ c : CombIx, w.getLsbD (16 + c.val) = true ∧ s.combMayRest c = false

/-- The model's check of a value of FAN_DOM_REQ is `State.domReqBad`. -/
theorem State.domReqBad_iff (s : State) (w : Word) :
    s.domReqBad w ↔ w &&& 0xFF01 ≠ 0 ∨ (allFin 16).any (fun c => w.getLsbD (16 + c.val) && !s.combMayRest c) = true := by
  simp [State.domReqBad, allFin]

/-- A bad value is discarded whole. -/
theorem State.wrDomReq_bad {s : State} {w : Word} (h : s.domReqBad w) : s.wrDomReq w = { s with fan := { s.fan with domRej := true } } :=
  if_pos ((s.domReqBad_iff w).mp h)

/-- The value w over the value old requests domain n down, or up. -/
def asksDown (w old : Word) (n : Fin 32) : Bool := w.getLsbD n.val && !old.getLsbD n.val
def asksUp (w old : Word) (n : Fin 32) : Bool := !w.getLsbD n.val && old.getLsbD n.val

/-- A request down is no request up, and the other way round; a bit that stays is neither. -/
theorem asksUp_of_set {w : Word} {n : Fin 32} (hw : w.getLsbD n.val = true) (old : Word) : asksUp w old n = false := by
  rw [asksUp, hw]; rfl
theorem asksDown_of_clear {w : Word} {n : Fin 32} (hw : w.getLsbD n.val = false) (old : Word) : asksDown w old n = false := by
  rw [asksDown, hw]; rfl
theorem asksUp_of_same {w old : Word} {n : Fin 32} (h : w.getLsbD n.val = old.getLsbD n.val) : asksUp w old n = false := by
  rw [asksUp, h, Bool.not_and_self]
theorem asksDown_of_same {w old : Word} {n : Fin 32} (h : w.getLsbD n.val = old.getLsbD n.val) : asksDown w old n = false := by
  rw [asksDown, h, Bool.and_not_self]

/-- The register holds w, and the domains that w newly names have been requested down. -/
def State.domReqDown (s : State) (w : Word) : State :=
  State.each { s with fan := { s.fan with req := w } } ((allFin 32).filter (asksDown w s.fan.req)) fun n s => s.domainDown n

section
variable {s : State} {w : Word} {n : Fin 32} (h : ¬s.domReqBad w)
include h

/-- A value that is not bad is stored, then requests domains down, then up. -/
theorem State.wrDomReq_good : s.wrDomReq w = (s.domReqDown w).each ((allFin 32).filter (asksUp w s.fan.req)) fun n s => s.domainUp n :=
  if_neg (mt (s.domReqBad_iff w).mpr h)

theorem State.wrDomReq_req : (s.wrDomReq w).fan.req = w := by
  rw [State.wrDomReq_good h, domainUp_movesDomain.each_req, State.domReqDown, domainDown_movesDomain.each_req]

theorem State.wrDomReq_domRej : (s.wrDomReq w).fan.domRej = s.fan.domRej := by
  rw [State.wrDomReq_good h, domainUp_movesDomain.each_domRej, State.domReqDown, domainDown_movesDomain.each_domRej]

/-- A bit that is newly set takes its domain from ON to DRAINING. -/
theorem State.wrDomReq_down (hw : w.getLsbD n.val = true) (hold : s.fan.req.getLsbD n.val = false) (hon : s.fan.dom[n] = .on) :
    (s.wrDomReq w).fan.dom[n] = .draining := by
  have hdown : asksDown w s.fan.req n = true := by rw [asksDown, hw, hold]; rfl
  rw [State.wrDomReq_good h, domainUp_movesDomain.each_out (asksUp_of_set hw _)]
  exact domainDown_movesDomain.each_in hdown hon

/-- A bit that is taken away takes its domain out of OFF. -/
theorem State.wrDomReq_up (hw : w.getLsbD n.val = false) (hold : s.fan.req.getLsbD n.val = true) (hoff : s.fan.dom[n] = .off) :
    (s.wrDomReq w).fan.dom[n] = .rising := by
  have hup : asksUp w s.fan.req n = true := by rw [asksUp, hw, hold]; rfl
  have hstill : (s.domReqDown w).fan.dom[n] = .off := (domainDown_movesDomain.each_out (asksDown_of_clear hw _) _).trans hoff
  rw [State.wrDomReq_good h]
  exact domainUp_movesDomain.each_in hup hstill

/-- A bit that stays leaves its domain. -/
theorem State.wrDomReq_same (hsame : w.getLsbD n.val = s.fan.req.getLsbD n.val) : (s.wrDomReq w).fan.dom[n] = s.fan.dom[n] := by
  rw [State.wrDomReq_good h, domainUp_movesDomain.each_out (asksUp_of_same hsame)]
  exact domainDown_movesDomain.each_out (asksDown_of_same hsame) _

end

/-- Both commands in a powered module are the write of the register, whichever agent writes. -/
theorem exec_domainPowerDown_alive {s : State} (h : s.alive) (a : Agent) (w : Word) : exec (.domainPowerDown a w) s = .next (s.wrDomReq w) :=
  live_alive h fun s => s.wrDomReq w
theorem exec_domainPowerUp_alive {s : State} (h : s.alive) (a : Agent) (w : Word) : exec (.domainPowerUp a w) s = .next (s.wrDomReq w) :=
  live_alive h fun s => s.wrDomReq w

/-- Settles O56: both commands are the one write of FAN_DOM_REQ; a bad value sets DOM_REJ alone, any other moves each domain whose bit changes, once. -/
theorem domainsAreRequested : Obligations.DomainsAreRequested := by
  intro s a w n halive bad asked rejected
  refine ⟨fun hbad => ?_, fun hgood => ?_⟩
  · rw [exec_domainPowerDown_alive halive, exec_domainPowerUp_alive halive, State.wrDomReq_bad hbad]
    exact ⟨rfl, rfl⟩
  · have hasked : asked (s.wrDomReq w) :=
      ⟨State.wrDomReq_req hgood, State.wrDomReq_domRej hgood, State.wrDomReq_down hgood, State.wrDomReq_up hgood, State.wrDomReq_same hgood⟩
    exact ⟨⟨_, exec_domainPowerDown_alive halive a w, hasked⟩, ⟨_, exec_domainPowerUp_alive halive a w, hasked⟩⟩

end Sys2Proof.Machine
